-- ==== Sys2Proof/Word.lean ====
section
/-! DEFINITION. The fixed-width words of the block (00_scope.md R12): bytes, 16-bit and 32-bit
unsigned integers. Quantities whose width is a parameter of the block (ticks, `uW`) or that are
counts and indexes are `Nat`. -/

namespace Sys2Proof

/-- A byte, 8 bits, unsigned (R12). -/
abbrev Byte := BitVec 8

/-- `u16` (R12). -/
abbrev U16 := BitVec 16

/-- `u32`, the width of the SETUP argument (R140). -/
abbrev U32 := BitVec 32

end Sys2Proof
end

