-- ==== Sys2Proof/Config.lean ====
section
/-! DEFINITION. The parameters of an instance (00_scope.md R10, 10_state.md R30) and the free
values the spec leaves open (93_implementation_defined.md U1 to U4). -/

namespace Sys2Proof

/-- `MODE`, the wire-format variant, fixed per instance (R4). -/
inductive Mode where
  | rtu
  | ascii
deriving DecidableEq, Repr

/-- Which of the eight handler calls of R351 a present handler implements (R352). -/
structure HandlerOps where
  readCoils : Bool
  readDiscreteInputs : Bool
  readHoldingRegisters : Bool
  readInputRegisters : Bool
  writeSingleCoil : Bool
  writeSingleRegister : Bool
  writeMultipleCoils : Bool
  writeMultipleRegisters : Bool
deriving DecidableEq, Repr

/-- The configuration of an instance (R10, R30). `DISCARD_MAX` is `bufferMax` (`Config.discardMax`). -/
structure Config where
  /-- `MODE` -/
  mode : Mode
  /-- `W`, the width of the tick type -/
  tickBits : Nat
  /-- `US_PER_TICK` -/
  usPerTick : Nat
  /-- `BUFFER_MAX` -/
  bufferMax : Nat
  /-- `INIT_BAUD` -/
  initBaud : Nat
  /-- `T15_FIXED_US` -/
  t15FixedUs : Nat
  /-- `T35_FIXED_US` -/
  t35FixedUs : Nat
  /-- `ASCII_GUARD_TICKS` -/
  asciiGuardTicks : Nat
  /-- `DISPATCHER_ATTACHED` -/
  dispatcherAttached : Bool
  /-- `HANDLER`: absent, or the calls it implements (R352, R353) -/
  handler : Option HandlerOps
  /-- `DIAG` -/
  diag : Bool
deriving DecidableEq, Repr

/-- A handler that implements every call. -/
def HandlerOps.all : HandlerOps :=
  { readCoils := true, readDiscreteInputs := true, readHoldingRegisters := true,
    readInputRegisters := true, writeSingleCoil := true, writeSingleRegister := true,
    writeMultipleCoils := true, writeMultipleRegisters := true }

/-- A handler that implements no call of its own. -/
def HandlerOps.none : HandlerOps :=
  { readCoils := false, readDiscreteInputs := false, readHoldingRegisters := false,
    readInputRegisters := false, writeSingleCoil := false, writeSingleRegister := false,
    writeMultipleCoils := false, writeMultipleRegisters := false }

/-- The vector configuration of 95_test_vectors.md (`W = 16`, `US_PER_TICK = 100`,
`BUFFER_MAX = 256`, `INIT_BAUD = 9600`, `ASCII_GUARD_TICKS = 4`, `DIAG = false`) with the default
fixed thresholds of R10, for either mode. DESIGN CHOICE (log 3), unsafe for a claim about
`State.reset` alone: the parameters are OPEN. -/
def Config.vector (m : Mode) : Config :=
  { mode := m, tickBits := 16, usPerTick := 100, bufferMax := 256, initBaud := 9600,
    t15FixedUs := 750, t35FixedUs := 1750, asciiGuardTicks := 4,
    dispatcherAttached := true, handler := some HandlerOps.all, diag := false }

/-- `2^W`, the modulus of tick arithmetic (R164). -/
def Config.tickModulus (c : Config) : Nat := 2 ^ c.tickBits

/-- `DISCARD_MAX = BUFFER_MAX` (R10). -/
def Config.discardMax (c : Config) : Nat := c.bufferMax

/-- Free value (safe; log 9): what FRAME_ADDRESS and BUFFER_READ return outside FRAME_READY, QUEUE
and COLLISION (U1, U2), at draw `n`. -/
opaque Config.freeByte : Nat → Byte

/-- Free value (safe; log 9): what BUFFER_LEN returns outside those states, before the bound
`0..BUFFER_MAX` of U1, at draw `n`. -/
opaque Config.freeLength : Nat → Nat

/-- Free value (safe; log 9): what cell `i`, never written since reset, reads as at draw `n` (U4). -/
opaque Config.freeCell : Nat → Nat → Byte

/-- Free value (safe; log 8): the exception code a handler call answers at draw `n` (U3). -/
opaque Config.freeExc : Nat → Byte

/-- Free value (safe; log 8): byte `j` of the data a read-bits call answers at draw `n` (U3). -/
opaque Config.freeData : Nat → Nat → Byte

/-- Free value (safe; log 8): register `j` of the data a read-registers call answers at draw `n`. -/
opaque Config.freeRegister : Nat → Nat → U16

/-- Free value (safe; log 31): item `k` of a receive stream that never pauses, a byte or (`none`) `ERR`
(R222, R456). -/
opaque Config.endlessItem : Nat → Option Byte

end Sys2Proof
end

