-- ==== Sys2Proof/Syntax.lean ====
section
/-! DEFINITION. The encoded inputs of the block, one constructor per row of opcode_table.json, and
the six spaces in which they are encoded (30_encoding.md; the table's "format" column). -/

namespace Sys2Proof

/-- The spaces of encoded input: the table's "format" column. The same byte value names different
rows in different spaces (0x01 is POLL, READ_COILS, the first byte of an RTU frame, an `OTHER`
character), so a decoder is told the space (log 1). -/
inductive Space where
  /-- host command words (R140) -/
  | command
  /-- the PDU of a request in the buffer (R117, R118) -/
  | request
  /-- an exception response PDU (R126) -/
  | response
  /-- a whole binary frame (R110) -/
  | rtuFrame
  /-- a whole character frame (R111) -/
  | asciiFrame
  /-- one character of the ASCII framer (R112) -/
  | character
deriving DecidableEq, Repr

/-- The encoded inputs. -/
inductive Instr where
  /-- 0x00 RESET (R440); its configuration is out of band -/
  | reset
  /-- 0x01 POLL (R201) -/
  | poll
  /-- 0x02 BEGIN_SEND (R203) -/
  | beginSend
  /-- 0x03 SEND (R204) -/
  | send
  /-- 0x04 FINISHED (R205) -/
  | finished
  /-- 0x05 STATION_ADDRESS (R208) -/
  | stationAddress
  /-- 0x06 SET_STATION_ADDRESS (R209) -/
  | setStationAddress (addr : Byte)
  /-- 0x07 FRAME_READY (R210) -/
  | frameReady
  /-- 0x08 FRAME_ADDRESS (R211) -/
  | frameAddress
  /-- 0x09 SET_FRAME_ADDRESS (R212) -/
  | setFrameAddress (addr : Byte)
  /-- 0x0A BUFFER_READ (R213) -/
  | bufferRead (i : U16)
  /-- 0x0B BUFFER_WRITE (R214) -/
  | bufferWrite (i : U16) (v : Byte)
  /-- 0x0C BUFFER_LEN (R215) -/
  | bufferLen
  /-- 0x0D SET_BUFFER_LEN (R216) -/
  | setBufferLen (n : U16)
  /-- 0x0E BUFFER_MAX (R217) -/
  | bufferMax
  /-- 0x0F SETUP (R218) -/
  | setup (baud : U32)
  /-- 0x10 CRC16_UPDATE (R174) -/
  | crc16Update (acc : U16) (bytes : List Byte)
  /-- 0x11 CRC16 (R175) -/
  | crc16 (bytes : List Byte)
  /-- 0x12 LRC_UPDATE (R176) -/
  | lrcUpdate (acc : Byte) (bytes : List Byte)
  /-- 0x13 LRC (R177) -/
  | lrc (bytes : List Byte)
  /-- 0x14 DISPATCH (R354) -/
  | dispatch
  /-- 0x15..0xFF, reserved command bytes (R140, R141) -/
  | reservedCommand (c : Byte)
  /-- function 0x01 with the PDU's data bytes, of any length (R119, R360) -/
  | readCoils (data : List Byte)
  /-- function 0x02 (R119, R361) -/
  | readDiscreteInputs (data : List Byte)
  /-- function 0x03 (R119, R362) -/
  | readHoldingRegisters (data : List Byte)
  /-- function 0x04 (R119, R363) -/
  | readInputRegisters (data : List Byte)
  /-- function 0x05 (R122, R364) -/
  | writeSingleCoil (data : List Byte)
  /-- function 0x06 (R123, R365) -/
  | writeSingleRegister (data : List Byte)
  /-- function 0x0F (R124, R366) -/
  | writeMultipleCoils (data : List Byte)
  /-- function 0x10 (R125, R367) -/
  | writeMultipleRegisters (data : List Byte)
  /-- any other function code (R128, R357) -/
  | illegalFunction (fc : Byte) (data : List Byte)
  /-- `[fc | 0x80, code]`; `fc` is the first byte, its bit 7 set (R126, R372) -/
  | exceptionResponse (fc code : Byte)
  /-- `[address][PDU][CRC-lo][CRC-hi]` (R110) -/
  | rtuFrame (address : Byte) (pdu : List Byte) (crcLo crcHi : Byte)
  /-- `:` address PDU LRC CR LF in hex digits (R111) -/
  | asciiFrame (address : Byte) (pdu : List Byte) (lrc : Byte)
  /-- `:` (R112, R304) -/
  | asciiColon
  /-- CR (R112, R309) -/
  | asciiCr
  /-- LF (R112, R312) -/
  | asciiLf
  /-- `0`..`9` (R112, R168) -/
  | asciiHexDigit09 (c : Byte)
  /-- `A`..`F` (R112, R168) -/
  | asciiHexDigitUpper (c : Byte)
  /-- `a`..`f` (R112, R168) -/
  | asciiHexDigitLower (c : Byte)
  /-- every other character (R112, R130) -/
  | asciiOther (c : Byte)
deriving DecidableEq, Repr

/-- The space a constructor is encoded in. -/
def Instr.space : Instr → Space
  | .reset => .command
  | .poll => .command
  | .beginSend => .command
  | .send => .command
  | .finished => .command
  | .stationAddress => .command
  | .setStationAddress _ => .command
  | .frameReady => .command
  | .frameAddress => .command
  | .setFrameAddress _ => .command
  | .bufferRead _ => .command
  | .bufferWrite _ _ => .command
  | .bufferLen => .command
  | .setBufferLen _ => .command
  | .bufferMax => .command
  | .setup _ => .command
  | .crc16Update _ _ => .command
  | .crc16 _ => .command
  | .lrcUpdate _ _ => .command
  | .lrc _ => .command
  | .dispatch => .command
  | .reservedCommand _ => .command
  | .readCoils _ => .request
  | .readDiscreteInputs _ => .request
  | .readHoldingRegisters _ => .request
  | .readInputRegisters _ => .request
  | .writeSingleCoil _ => .request
  | .writeSingleRegister _ => .request
  | .writeMultipleCoils _ => .request
  | .writeMultipleRegisters _ => .request
  | .illegalFunction _ _ => .request
  | .exceptionResponse _ _ => .response
  | .rtuFrame _ _ _ _ => .rtuFrame
  | .asciiFrame _ _ _ => .asciiFrame
  | .asciiColon => .character
  | .asciiCr => .character
  | .asciiLf => .character
  | .asciiHexDigit09 _ => .character
  | .asciiHexDigitUpper _ => .character
  | .asciiHexDigitLower _ => .character
  | .asciiOther _ => .character

end Sys2Proof
end

