-- ==== Sys2Proof/WellFormed.lean ====
section
/-! DEFINITION. Which operands an encoded input can carry. A well-formed instruction is one its
encoding can express (30_encoding.md): lengths fit their 2-byte fields, classes hold their own byte
values, a PDU is no longer than any buffer can hold (`BUFFER_MAX ≤ 257`, R10). Nothing here restricts
what the machine executes. -/

namespace Sys2Proof

/-- A byte sequence argument has a 2-byte length (R140). -/
def fitsLengthField (bytes : List Byte) : Bool := decide (bytes.length < 65536)

/-- A PDU's data bytes (all but the function code) fit the largest buffer (R10, R117). -/
def fitsPdu (data : List Byte) : Bool := decide (data.length ≤ 256)

/-- The eight function codes of R118. -/
def isFunctionCode (fc : Byte) : Bool :=
  decide (fc ∈ [0x01#8, 0x02#8, 0x03#8, 0x04#8, 0x05#8, 0x06#8, 0x0F#8, 0x10#8])

def isDigit09 (c : Byte) : Bool := decide (0x30 ≤ c.toNat ∧ c.toNat ≤ 0x39)
def isDigitUpper (c : Byte) : Bool := decide (0x41 ≤ c.toNat ∧ c.toNat ≤ 0x46)
def isDigitLower (c : Byte) : Bool := decide (0x61 ≤ c.toNat ∧ c.toNat ≤ 0x66)

/-- Class `OTHER` of R112: neither `:`, CR, LF nor a hex digit. -/
def isOtherChar (c : Byte) : Bool :=
  !(isDigit09 c || isDigitUpper c || isDigitLower c
    || decide (c = 0x3A#8) || decide (c = 0x0D#8) || decide (c = 0x0A#8))

/-- Well-formedness of an instruction. -/
def Instr.wellFormed : Instr → Bool
  | .reset => true
  | .poll => true
  | .beginSend => true
  | .send => true
  | .finished => true
  | .stationAddress => true
  | .setStationAddress _ => true
  | .frameReady => true
  | .frameAddress => true
  | .setFrameAddress _ => true
  | .bufferRead _ => true
  | .bufferWrite _ _ => true
  | .bufferLen => true
  | .setBufferLen _ => true
  | .bufferMax => true
  | .setup _ => true
  | .crc16Update _ bytes => fitsLengthField bytes
  | .crc16 bytes => fitsLengthField bytes
  | .lrcUpdate _ bytes => fitsLengthField bytes
  | .lrc bytes => fitsLengthField bytes
  | .dispatch => true
  | .reservedCommand c => decide (0x15 ≤ c.toNat)
  | .readCoils data => fitsPdu data
  | .readDiscreteInputs data => fitsPdu data
  | .readHoldingRegisters data => fitsPdu data
  | .readInputRegisters data => fitsPdu data
  | .writeSingleCoil data => fitsPdu data
  | .writeSingleRegister data => fitsPdu data
  | .writeMultipleCoils data => fitsPdu data
  | .writeMultipleRegisters data => fitsPdu data
  | .illegalFunction fc data => !isFunctionCode fc && fitsPdu data
  | .exceptionResponse fc code => fc.getLsbD 7 && decide (code ≠ 0#8)
  | .rtuFrame _ pdu _ _ => decide (pdu.length ≤ 256)
  | .asciiFrame _ pdu _ => decide (pdu.length ≤ 256)
  | .asciiColon => true
  | .asciiCr => true
  | .asciiLf => true
  | .asciiHexDigit09 c => isDigit09 c
  | .asciiHexDigitUpper c => isDigitUpper c
  | .asciiHexDigitLower c => isDigitLower c
  | .asciiOther c => isOtherChar c

end Sys2Proof
end

