-- ==== Sys2Proof/Decode.lean ====
section
/-! DEFINITION. The hex codec (40_checksum.md R168, R169), byte order of 16-bit fields (20_memory.md
R84), the decoders of the six spaces and the encoder (30_encoding.md), total on any bytes. -/

namespace Sys2Proof

/-! ### Byte order and hex digits -/

/-- `BE16`: high byte at the lower index (R84). -/
def be16 (hi lo : Byte) : U16 := hi ++ lo

/-- `v[15:8]`. -/
def hiByte (v : U16) : Byte := v.extractLsb' 8 8

/-- `v[7:0]`. -/
def loByte (v : U16) : Byte := v.extractLsb' 0 8

/-- A 16-bit value as it stands in a PDU or a command word, high byte first (R84, R140). -/
def be16Bytes (v : U16) : List Byte := [hiByte v, loByte v]

/-- A 32-bit argument from its four bytes, high byte first (R140). -/
def be32 (a b c d : Byte) : U32 := a ++ b ++ c ++ d

/-- A 32-bit value as four bytes, high byte first (R140). -/
def be32Bytes (v : U32) : List Byte :=
  [v.extractLsb' 24 8, v.extractLsb' 16 8, v.extractLsb' 8 8, v.extractLsb' 0 8]

/-- `hexval(c)` (R168): uppercase and lowercase are equal. -/
def hexval (c : Byte) : Option (BitVec 4) :=
  if isDigit09 c then some (BitVec.ofNat 4 (c.toNat - 0x30))
  else if isDigitUpper c then some (BitVec.ofNat 4 (c.toNat - 0x37))
  else if isDigitLower c then some (BitVec.ofNat 4 (c.toNat - 0x57))
  else none

/-- `hexchar(n)` (R169), uppercase. -/
def hexchar (n : BitVec 4) : Byte :=
  if n.toNat < 10 then BitVec.ofNat 8 (0x30 + n.toNat) else BitVec.ofNat 8 (0x37 + n.toNat)

/-- `hex2(b)` (R169, R86): the digit of bits 7..4 first. -/
def hex2 (b : Byte) : List Byte := [hexchar (b.extractLsb' 4 4), hexchar (b.extractLsb' 0 4)]

/-- The hex digits of a byte sequence. -/
def hexAll (bs : List Byte) : List Byte := bs.flatMap hex2

/-- `16·hi + lo` (R133). -/
def nibbles (hi lo : BitVec 4) : Byte := hi ++ lo

/-! ### Decoding -/

/-- Why a byte string is no instruction of its space. -/
inductive DecodeError where
  /-- no byte at all -/
  | emptyWord
  /-- fewer argument bytes than the layout needs (R141), or a frame with no room for its fields -/
  | tooShort
  /-- bytes after the layout's last (R141: a byte string is one command or a refusal; log 19) -/
  | trailingBytes
  /-- a response PDU whose first byte has bit 7 clear (R126) -/
  | notAnExceptionResponse
  /-- a character frame that does not begin with `:` (R111) -/
  | missingColon
  /-- a character frame whose digits are no hex pairs, or that does not end in CR LF (R111) -/
  | badCharacter
deriving DecidableEq, Repr

/-- One command from the front of a byte string, with the bytes after it. -/
inductive Taken where
  | instr (i : Instr) (rest : List Byte)
  | reject (e : DecodeError)
deriving DecidableEq, Repr

/-- A one-byte argument. -/
def takeByte (args : List Byte) (k : Byte → Instr) : Taken :=
  match args with
  | a :: rest => .instr (k a) rest
  | _ => .reject .tooShort

/-- A two-byte argument (R140: big-endian). -/
def takeU16 (args : List Byte) (k : U16 → List Byte → Taken) : Taken :=
  match args with
  | a :: b :: rest => k (be16 a b) rest
  | _ => .reject .tooShort

/-- A four-byte argument. -/
def takeU32 (args : List Byte) (k : U32 → Instr) : Taken :=
  match args with
  | a :: b :: c :: d :: rest => .instr (k (be32 a b c d)) rest
  | _ => .reject .tooShort

/-- A byte sequence argument: a 2-byte big-endian length, then the bytes (R140). -/
def takeBytes (args : List Byte) (k : List Byte → Instr) : Taken :=
  takeU16 args fun n rest =>
    if rest.length < n.toNat then .reject .tooShort
    else .instr (k (rest.take n.toNat)) (rest.drop n.toNat)

/-- The host command table of R140: the command byte, then its arguments in the order listed. -/
def takeCommand (bytes : List Byte) : Taken :=
  match bytes with
  | [] => .reject .emptyWord
  | c :: args =>
    match c.toNat with
    | 0x00 => .instr .reset args
    | 0x01 => .instr .poll args
    | 0x02 => .instr .beginSend args
    | 0x03 => .instr .send args
    | 0x04 => .instr .finished args
    | 0x05 => .instr .stationAddress args
    | 0x06 => takeByte args .setStationAddress
    | 0x07 => .instr .frameReady args
    | 0x08 => .instr .frameAddress args
    | 0x09 => takeByte args .setFrameAddress
    | 0x0A => takeU16 args fun i rest => .instr (.bufferRead i) rest
    | 0x0B => takeU16 args fun i rest => takeByte rest (.bufferWrite i)
    | 0x0C => .instr .bufferLen args
    | 0x0D => takeU16 args fun n rest => .instr (.setBufferLen n) rest
    | 0x0E => .instr .bufferMax args
    | 0x0F => takeU32 args .setup
    | 0x10 => takeU16 args fun acc rest => takeBytes rest (.crc16Update acc)
    | 0x11 => takeBytes args .crc16
    | 0x12 =>
      match args with
      | acc :: rest => takeBytes rest (.lrcUpdate acc)
      | _ => .reject .tooShort
    | 0x13 => takeBytes args .lrc
    | 0x14 => .instr .dispatch args
    | _ => .instr (.reservedCommand c) args

/-- A whole command word (R140, R141). -/
def decodeCommand (bytes : List Byte) : Except DecodeError Instr :=
  match takeCommand bytes with
  | .instr i [] => .ok i
  | .instr _ (_ :: _) => .error .trailingBytes
  | .reject e => .error e

/-- A request PDU (R117, R118): the function code alone selects; the length is the validator's. -/
def decodeRequest (bytes : List Byte) : Except DecodeError Instr :=
  match bytes with
  | [] => .error .emptyWord
  | fc :: data =>
    match fc.toNat with
    | 0x01 => .ok (.readCoils data)
    | 0x02 => .ok (.readDiscreteInputs data)
    | 0x03 => .ok (.readHoldingRegisters data)
    | 0x04 => .ok (.readInputRegisters data)
    | 0x05 => .ok (.writeSingleCoil data)
    | 0x06 => .ok (.writeSingleRegister data)
    | 0x0F => .ok (.writeMultipleCoils data)
    | 0x10 => .ok (.writeMultipleRegisters data)
    | _ => .ok (.illegalFunction fc data)

/-- An exception response (R126): two bytes, bit 7 of the first set. -/
def decodeResponse (bytes : List Byte) : Except DecodeError Instr :=
  match bytes with
  | [] => .error .emptyWord
  | [_] => .error .tooShort
  | [fc, code] =>
    if fc.getLsbD 7 then .ok (.exceptionResponse fc code) else .error .notAnExceptionResponse
  | _ :: _ :: _ :: _ => .error .trailingBytes

/-- A binary frame (R110): address first, the two CRC bytes last, low byte first (R85). -/
def decodeRtuFrame (bytes : List Byte) : Except DecodeError Instr :=
  match bytes with
  | [] => .error .emptyWord
  | address :: rest =>
    match rest.reverse with
    | hi :: lo :: pduRev => .ok (.rtuFrame address pduRev.reverse lo hi)
    | _ => .error .tooShort

/-- The bytes of hex digit pairs up to a final CR LF (R111, R133). -/
def decodeHexBody : List Byte → Except DecodeError (List Byte)
  | c1 :: c2 :: rest =>
    match hexval c1, hexval c2 with
    | some h, some l =>
      match decodeHexBody rest with
      | .ok bs => .ok (nibbles h l :: bs)
      | .error e => .error e
    | _, _ => if c1 = 0x0D#8 ∧ c2 = 0x0A#8 ∧ rest = [] then .ok [] else .error .badCharacter
  | _ => .error .badCharacter

/-- A character frame (R111). -/
def decodeAsciiFrame (bytes : List Byte) : Except DecodeError Instr :=
  match bytes with
  | [] => .error .emptyWord
  | c :: rest =>
    if c = 0x3A#8 then
      match decodeHexBody rest with
      | .error e => .error e
      | .ok [] => .error .tooShort
      | .ok (address :: body) =>
        match body.reverse with
        | lrc :: pduRev => .ok (.asciiFrame address pduRev.reverse lrc)
        | [] => .error .tooShort
    else .error .missingColon

/-- The class of one character (R112). -/
def classify (c : Byte) : Instr :=
  if c = 0x3A#8 then .asciiColon
  else if c = 0x0D#8 then .asciiCr
  else if c = 0x0A#8 then .asciiLf
  else if isDigit09 c then .asciiHexDigit09 c
  else if isDigitUpper c then .asciiHexDigitUpper c
  else if isDigitLower c then .asciiHexDigitLower c
  else .asciiOther c

/-- One character. -/
def decodeCharacter (bytes : List Byte) : Except DecodeError Instr :=
  match bytes with
  | [] => .error .emptyWord
  | [c] => .ok (classify c)
  | _ :: _ :: _ => .error .trailingBytes

/-- The decoder: the bytes of one encoded input of a space, total. -/
def decode (sp : Space) (bytes : List Byte) : Except DecodeError Instr :=
  match sp with
  | .command => decodeCommand bytes
  | .request => decodeRequest bytes
  | .response => decodeResponse bytes
  | .rtuFrame => decodeRtuFrame bytes
  | .asciiFrame => decodeAsciiFrame bytes
  | .character => decodeCharacter bytes

/-! ### Encoding -/

/-- A byte sequence argument (R140). -/
def lengthPrefixed (bytes : List Byte) : List Byte :=
  be16Bytes (BitVec.ofNat 16 bytes.length) ++ bytes

/-- The encoding of an instruction in its own space, from the tables of 30_encoding.md. -/
def encode : Instr → List Byte
  | .reset => [0x00#8]
  | .poll => [0x01#8]
  | .beginSend => [0x02#8]
  | .send => [0x03#8]
  | .finished => [0x04#8]
  | .stationAddress => [0x05#8]
  | .setStationAddress addr => [0x06#8, addr]
  | .frameReady => [0x07#8]
  | .frameAddress => [0x08#8]
  | .setFrameAddress addr => [0x09#8, addr]
  | .bufferRead i => 0x0A#8 :: be16Bytes i
  | .bufferWrite i v => 0x0B#8 :: (be16Bytes i ++ [v])
  | .bufferLen => [0x0C#8]
  | .setBufferLen n => 0x0D#8 :: be16Bytes n
  | .bufferMax => [0x0E#8]
  | .setup baud => 0x0F#8 :: be32Bytes baud
  | .crc16Update acc bytes => 0x10#8 :: (be16Bytes acc ++ lengthPrefixed bytes)
  | .crc16 bytes => 0x11#8 :: lengthPrefixed bytes
  | .lrcUpdate acc bytes => 0x12#8 :: acc :: lengthPrefixed bytes
  | .lrc bytes => 0x13#8 :: lengthPrefixed bytes
  | .dispatch => [0x14#8]
  | .reservedCommand c => [c]
  | .readCoils data => 0x01#8 :: data
  | .readDiscreteInputs data => 0x02#8 :: data
  | .readHoldingRegisters data => 0x03#8 :: data
  | .readInputRegisters data => 0x04#8 :: data
  | .writeSingleCoil data => 0x05#8 :: data
  | .writeSingleRegister data => 0x06#8 :: data
  | .writeMultipleCoils data => 0x0F#8 :: data
  | .writeMultipleRegisters data => 0x10#8 :: data
  | .illegalFunction fc data => fc :: data
  | .exceptionResponse fc code => [fc, code]
  | .rtuFrame address pdu crcLo crcHi => address :: (pdu ++ [crcLo, crcHi])
  | .asciiFrame address pdu lrc =>
    0x3A#8 :: (hexAll (address :: (pdu ++ [lrc])) ++ [0x0D#8, 0x0A#8])
  | .asciiColon => [0x3A#8]
  | .asciiCr => [0x0D#8]
  | .asciiLf => [0x0A#8]
  | .asciiHexDigit09 c => [c]
  | .asciiHexDigitUpper c => [c]
  | .asciiHexDigitLower c => [c]
  | .asciiOther c => [c]

/-! ### The opcode table's words -/

/-- The bytes of a table word: bit 0 is the least significant bit of the first byte, the second byte
is bits 15..8, and so on; the bits above `nbits` are 0 (up to the longest fixed layout). -/
def tableBytes (nbits w : Nat) : List Byte :=
  (List.range (nbits / 8)).map (fun k => BitVec.ofNat 8 (w / 2 ^ (8 * k))) ++ List.replicate 8 0#8

/-- The instruction the decoder of host command words reads from a table word. The table's six
formats share the same byte values, and a word alone names one space: the host command interface,
the block's only instruction interface (R80, R99; log 1). -/
def decodeTableWord (nbits w : Nat) : Option Instr :=
  match takeCommand (tableBytes nbits w) with
  | .instr i _ => some i
  | .reject _ => none

/-- The bytes of a table word that belong to its first command. -/
def tableWord (nbits w : Nat) : List Byte :=
  match takeCommand (tableBytes nbits w) with
  | .instr _ rest => (tableBytes nbits w).take ((tableBytes nbits w).length - rest.length)
  | .reject _ => tableBytes nbits w

end Sys2Proof
end

