-- ==== Sys2Proof/Machine/Timing.lean ====
section
/-! DEFINITION. Tick arithmetic and the derived timing constants (40_checksum.md R164, R170 to R173)
and the configuration check of 00_scope.md R10 and R11. -/

namespace Sys2Proof.Machine

/-- `elapsed(start, now) = (now − start) mod 2^W` (R164). -/
def elapsed (c : Config) (start now : Nat) : Nat :=
  (now + (c.tickModulus - start % c.tickModulus)) % c.tickModulus

/-- `BAUD_THRESHOLD` (R10). -/
def baudThreshold : Nat := 19200

/-- `T1S_US` (R10). -/
def t1sUs : Nat := 1000000

/-- `TICK_FLOOR` (R10). -/
def tickFloor : Nat := 2

/-- `to_ticks(us) = max(2, us div US_PER_TICK)` (R170). -/
def toTicks (c : Config) (us : Nat) : Nat := max tickFloor (us / c.usPerTick)

/-- T3.5 in microseconds (R171). -/
def t35Us (c : Config) (baud : Nat) : Nat :=
  if baud ≤ baudThreshold then 38500000 / baud else c.t35FixedUs

/-- T1.5 in microseconds (R171). -/
def t15Us (c : Config) (baud : Nat) : Nat :=
  if baud ≤ baudThreshold then 16500000 / baud else c.t15FixedUs

/-- `S.T35` derived from a baud rate (R171). -/
def deriveT35 (c : Config) (baud : Nat) : Nat := toTicks c (t35Us c baud)

/-- `S.T15` derived from a baud rate (R171). -/
def deriveT15 (c : Config) (baud : Nat) : Nat := toTicks c (t15Us c baud)

/-- `S.T1S` (R172): the baud does not enter it. -/
def deriveT1s (c : Config) : Nat := toTicks c t1sUs

/-- Every derived constant of the mode, and the guard, is at most `2^W − 1` (R11). -/
def constantsFit (c : Config) (baud : Nat) : Bool :=
  (match c.mode with
    | .rtu => decide (deriveT15 c baud < c.tickModulus) && decide (deriveT35 c baud < c.tickModulus)
    | .ascii => decide (deriveT1s c < c.tickModulus))
  && decide (c.asciiGuardTicks < c.tickModulus)

/-- The ranges of R10. -/
def Config.inRange (c : Config) : Bool :=
  decide (8 ≤ c.tickBits) && decide (1 ≤ c.usPerTick)
  && decide (8 ≤ c.bufferMax) && decide (c.bufferMax ≤ 257)
  && decide (1 ≤ c.initBaud) && decide (2 ≤ c.asciiGuardTicks)

/-- A configuration RESET accepts (R10, R11; log 6). -/
def Config.valid (c : Config) : Bool := Config.inRange c && constantsFit c c.initBaud

end Sys2Proof.Machine
end

