-- ==== Sys2Proof/Machine/State.lean ====
section
/-! DEFINITION. The state of one instance: the block's own fields (10_state.md R32 to R53), its
configuration, the external agents, and the state after reset (70_reset_and_hazards.md R440). All
plain data. -/

namespace Sys2Proof.Machine

/-- The engine states of R32. -/
inductive St where
  | exception
  | dump
  | idle
  | receive
  | rxAddrHi
  | rxAddrLo
  | rxDataHi
  | rxDataLo
  | rxLf
  | frameReady
  | queue
  | collision
  | txStart
  | txAddress
  | txPdu
  | txChecksum
  | txEnd
  | txDrain
  | txGuard
deriving DecidableEq, Repr

/-- The PDU buffer (R42): (index, byte) pairs at strictly rising indexes; a cell that is not listed
has not been written since reset. -/
abbrev Memory := List Host.Cell

/-- The block's own fields, `S` of the spec. -/
structure Block where
  /-- `S.st` (R32) -/
  st : St
  /-- `S.station` (R35) -/
  station : Byte
  /-- `S.faddr` (R36) -/
  faddr : Byte
  /-- `S.len` (R37) -/
  len : Nat
  /-- `S.baud` (R38) -/
  baud : Nat
  /-- `S.T15` (R39) -/
  t15 : Nat
  /-- `S.T35` (R39) -/
  t35 : Nat
  /-- `S.T1S` (R40) -/
  t1s : Nat
  /-- `S.buf` (R42) -/
  buf : Memory
  /-- `S.crc` (R43) -/
  crc : U16
  /-- `S.lrc` (R44) -/
  lrc : Byte
  /-- `S.t_ref` (R45) -/
  tRef : Nat
  /-- `S.rx_n` (R46) -/
  rxN : Nat
  /-- `S.gap` (R47) -/
  gap : Bool
  /-- `S.nib` (R48) -/
  nib : BitVec 4
  /-- `S.tx_pos` (R49) -/
  txPos : Nat
  /-- `S.txen` (R50) -/
  txen : Bool
  /-- `S.stat`, `(rx_active, tx_active)` (R51) -/
  stat : Bool × Bool
  /-- `S.in_poll` (R52) -/
  inPoll : Bool
  /-- `S.refused` (R53) -/
  refused : Bool
deriving DecidableEq, Repr

/-- An answer of the receive stream to `Read(n)` or `Discard(n)` (R14): the bytes delivered (for a
discard only their count matters), or `ERR`. -/
inductive RxAnswer where
  | err
  | bytes (bs : List Byte)
deriving DecidableEq, Repr

/-- An answer of the transmit stream to `Write(s)` (R14). -/
inductive WrAnswer where
  | err
  | accepted (k : Nat)
deriving DecidableEq, Repr

/-- The eight handler calls (R351). -/
inductive HandlerCall where
  | readCoils (addr count : U16)
  | readDiscreteInputs (addr count : U16)
  | readHoldingRegisters (addr count : U16)
  | readInputRegisters (addr count : U16)
  | writeSingleCoil (addr : U16) (on : Bool)
  | writeSingleRegister (addr value : U16)
  | writeMultipleCoils (addr count : U16) (bytes : List Byte)
  | writeMultipleRegisters (addr count : U16) (values : List U16)
deriving DecidableEq, Repr

/-- A handler's answer (R351): an exception code and, for a read answering 0, its data. -/
structure HandlerAnswer where
  exc : Byte
  bytes : List Byte
  regs : List U16
deriving DecidableEq, Repr

/-- A capability call the block made, with its answer (R14, R147). -/
inductive Call where
  | ticks (t : Nat)
  | read (n : Nat) (answer : RxAnswer)
  | discard (n : Nat) (answer : RxAnswer)
  | write (offered : List Byte) (answer : WrAnswer)
  | writeComplete (answer : Bool)
  | txEnable (level : Bool)
  | status (rxActive txActive : Bool)
  | frameReady
  | handler (c : HandlerCall) (answer : HandlerAnswer)
deriving DecidableEq, Repr

/-- What the outside places before the block (R140, R145; log 2). -/
inductive Input where
  /-- the bytes of one host command word, decoded and executed by the step that takes it -/
  | word (bytes : List Byte)
  /-- `AT t` -/
  | setTicks (t : Nat)
  /-- `WAIT d` (R146) -/
  | wait (d : Nat)
  /-- `RX b0 b1 ...` -/
  | rx (bs : List Byte)
  /-- `RXERR` -/
  | rxErr
  /-- `WRERR` -/
  | wrErr
  /-- `TXBUSY` -/
  | txBusy
  /-- `TXDONE` -/
  | txDone
  /-- from now on, once the queue is empty, the receive stream supplies items without a pause, from this
  position on, or falls silent again (R222, R456; log 31) -/
  | rxEndless (start : Option Nat)
  /-- `RESET k=v ...`'s configuration, presented out of band to the next RESET -/
  | configure (c : Config)
deriving DecidableEq, Repr

/-- The external agents (R14, R147). The scripts hold their draws, in call order, and come before the
reference environment's answers (log 7). -/
structure Env where
  /-- inputs not yet taken, next first -/
  inputs : List Input
  /-- what `Ticks()` answers (`AT`) -/
  now : Nat
  /-- received bytes not yet read -/
  rxQueue : List Byte
  /-- the next item of a receive stream that never pauses, or none where the stream falls silent when
  the queue is empty (R222, R456; log 31) -/
  rxEndless : Option Nat
  /-- the next `Read` or `Discard` answers `ERR`, once -/
  rxErr : Bool
  /-- the next `Write` answers `ERR`, once -/
  wrErr : Bool
  /-- what `WriteComplete()` answers -/
  txDone : Bool
  /-- draws of `Read` and `Discard` -/
  rxScript : List RxAnswer
  /-- draws of `Write` -/
  wrScript : List WrAnswer
  /-- draws of `WriteComplete` -/
  doneScript : List Bool
  /-- draws of `Ticks` -/
  tickScript : List Nat
  /-- draws of the register handler -/
  handlerScript : List HandlerAnswer
  /-- the command words an external frame-ready callback issues, one entry per invocation -/
  callback : List (List (List Byte))
  /-- every capability call made, oldest first -/
  calls : List Call
deriving DecidableEq, Repr

/-- A command's result (R140), before its encoding; `none` until a command has returned one. -/
inductive Result where
  | none
  | deadline (d : Nat)
  | bool (b : Bool)
  | u8 (v : Byte)
  | u16 (v : U16)
deriving DecidableEq, Repr

/-- The whole state of an instance and its surroundings. -/
structure State where
  /-- the configuration of the instance (R30) -/
  cfg : Config
  /-- the block's own fields -/
  blk : Block
  /-- the external agents -/
  env : Env
  /-- the configuration the next RESET takes, out of band (R140, R440; log 4) -/
  resetCfg : Config
  /-- the result of the last command that returned one (R140; log 25) -/
  result : Result
  /-- the model's own counter of free values (log 9) -/
  draws : Nat
  /-- the model's own mark that the loop of a POLL is under way, between two of its micro-steps
  (R201; log 33) -/
  polling : Bool
deriving DecidableEq, Repr

/-- Why the model stops with a fault: never. Every error the spec gives the block is a state of it:
the terminal state EXCEPTION (R400), a protocol exception (R410), a silent discard (R412). -/
inductive Fault where
deriving DecidableEq, Repr

/-- Why the model gives an instruction no meaning. -/
inductive Refusal where
  /-- Raised by an arm of `exec` whose instruction is not modelled yet; safe. No arm uses it: every
  instruction has its meaning, and what the spec calls a refusal (R15) is the field `S.refused`. -/
  | notModelled (mnemonic : String)
deriving DecidableEq, Repr

/-- The reference environment of R147 before any stimulus, with no draw prescribed. -/
def Env.initial : Env :=
  { inputs := [], now := 0, rxQueue := [], rxEndless := none, rxErr := false, wrErr := false, txDone := true,
    rxScript := [], wrScript := [], doneScript := [], tickScript := [], handlerScript := [],
    callback := [], calls := [] }

/-- The machine right after reset (R440, R55): RTU, the vector configuration (log 3), at tick 0. -/
def State.reset : State :=
  { cfg := Config.vector .rtu
    blk :=
      { st := .dump, station := 0#8, faddr := 0#8, len := 0, baud := 9600
        t15 := 17, t35 := 40, t1s := 0
        buf := [], crc := 0xFFFF#16, lrc := 0#8, tRef := 0, rxN := 0, gap := false, nib := 0#4
        txPos := 0, txen := false, stat := (false, false), inPoll := false, refused := false }
    env := Env.initial
    resetCfg := Config.vector .rtu
    result := .none
    draws := 0
    polling := false }

end Sys2Proof.Machine
end

