-- ==== Sys2Proof/Machine/Ops.lean ====
section
/-! DEFINITION. The named operations over the state: the PDU buffer (20_memory.md), the capability
primitives (00_scope.md R14), refusals (R15), the entry to the terminal exception state
(60_exceptions.md R400) and, beside it, the only way out, construction (70_reset_and_hazards.md R440). -/

namespace Sys2Proof.Machine

/-! ### Named updates -/

/-- Write the block's fields. -/
def State.setBlk (s : State) (b : Block) : State := { s with blk := b }

/-- Write the external agents. -/
def State.setEnv (s : State) (e : Env) : State := { s with env := e }

/-- Write the command result. -/
def State.setResult (s : State) (r : Result) : State := { s with result := r }

/-- Mark that the loop of a POLL is under way, or that none is. -/
def State.setPolling (s : State) (b : Bool) : State := { s with polling := b }

/-- Move on to the next free value. -/
def State.draw (s : State) : State := { s with draws := s.draws + 1 }

/-- `S.st <- x` (`goto`, R13). -/
def State.goto (s : State) (x : St) : State := s.setBlk { s.blk with st := x }

/-- `S.t_ref <- now; S.st <- x`. -/
def State.gotoAt (s : State) (x : St) (now : Nat) : State :=
  s.setBlk { s.blk with st := x, tRef := now }

/-- Record a capability call. -/
def State.logCall (s : State) (c : Call) : State :=
  s.setEnv { s.env with calls := s.env.calls ++ [c] }

/-! ### The PDU buffer -/

/-- Cell `i`, if it has been written (R42). -/
def Memory.read : Memory → Nat → Option Byte
  | [], _ => none
  | (a, b) :: m, i => if a = i then some b else Memory.read m i

/-- `buf[i] <- v`, keeping the canonical form. -/
def Memory.write : Memory → Nat → Byte → Memory
  | [], i, v => [(i, v)]
  | (a, b) :: m, i, v =>
    if i < a then (i, v) :: (a, b) :: m
    else if i = a then (i, v) :: m
    else (a, b) :: Memory.write m i v

/-- `MemWrite(i, |bs|, bs)` (R13): one byte at a time (R83, R88). -/
def Memory.writeBytes (m : Memory) (i : Nat) : List Byte → Memory
  | [] => m
  | b :: bs => Memory.writeBytes (Memory.write m i b) (i + 1) bs

/-- The canonical form: strictly rising indexes. -/
def Memory.wf : Memory → Bool
  | [] => true
  | [_] => true
  | (a, _) :: (a', b') :: m => decide (a < a') && Memory.wf ((a', b') :: m)

/-- Every listed index is below `n`. -/
def Memory.below (m : Memory) (n : Nat) : Bool := m.all fun c => decide (c.1 < n)

/-- Every cell of `[0..n)` has been written. -/
def Memory.written (m : Memory) (n : Nat) : Bool :=
  (List.range n).all fun i => (Memory.read m i).isSome

/-- `buf[i]`: the byte written, or a free value at the present draw (R42, U4). -/
def State.cell (s : State) (i : Nat) : Byte :=
  match Memory.read s.blk.buf i with
  | some b => b
  | none => Config.freeCell s.draws i

/-- `buf[i..j)` (R12, R13). -/
def State.cells (s : State) (i j : Nat) : List Byte :=
  (List.range (j - i)).map fun k => s.cell (i + k)

/-- The PDU, `buf[0..S.len)` (R117). -/
def State.pdu (s : State) : List Byte := s.cells 0 s.blk.len

/-- `MemWrite` on the state. -/
def State.writeBuf (s : State) (i : Nat) (bs : List Byte) : State :=
  s.setBlk { s.blk with buf := Memory.writeBytes s.blk.buf i bs }

/-- `S.len <- n`. -/
def State.setLen (s : State) (n : Nat) : State := s.setBlk { s.blk with len := n }

/-! ### Refusals and the terminal exception state -/

/-- The reasons the spec names for a refusal (R15); `S.refused` does not record which. -/
inductive RefuseReason where
  /-- `POLL_REENTERED` (R201, R225) -/
  | pollReentered
  /-- `SEND_WITHOUT_BEGIN_SEND` (R204) -/
  | sendWithoutBeginSend
  /-- `FINISHED_WITHOUT_HOLD` (R205) -/
  | finishedWithoutHold
  /-- SET_FRAME_ADDRESS, BUFFER_WRITE, SET_BUFFER_LEN outside QUEUE and COLLISION (R224) -/
  | notComposing
  /-- an index or length outside R82 -/
  | outOfRange
  /-- `BAUD_ZERO` (R218) -/
  | baudZero
  /-- `CONSTANT_TOO_LARGE` (R218, R11) -/
  | constantTooLarge
  /-- `DISPATCH_WITHOUT_FRAME` (R354) -/
  | dispatchWithoutFrame
  /-- `BAD_CONFIGURATION` (R440) -/
  | badConfiguration
  /-- a reserved command byte (R141) -/
  | reservedCommand
  /-- a byte string that is no command word (R141) -/
  | badWord
deriving DecidableEq, Repr

/-- `refuse(reason)` (R15, R53, R141, R224): `S.refused <- true` and nothing else changes. -/
def refuse (_reason : RefuseReason) (s : State) : State :=
  s.setBlk { s.blk with refused := true }

/-- An external answer that broke its primitive's range (R91, R351) is refused: the block's fields are
those of `before`, where the command or micro-step under way began, and `S.refused` is set; the
agents and the draws have moved on to `after`. DESIGN CHOICE (log 10, 30), unsafe: the spec claims
nothing of such a run. -/
def abandon (before after : State) : State :=
  { before with
    blk := { before.blk with refused := true }
    env := after.env
    draws := after.draws }

/-- The two fatal causes (R401, R402); they are recorded nowhere (R400). -/
inductive FatalCause where
  | sendLength
  | writeError
deriving DecidableEq, Repr

/-- `raise Fatal(cause)` (R400): the terminal state; `S.st` alone is written and no call is made. -/
def raiseFatal (_cause : FatalCause) (s : State) : State := s.goto .exception

/-! ### Capability primitives -/

/-- `Ticks()` (R14, R425): a `uW`. -/
def ticks (s : State) : Nat × State :=
  match s.env.tickScript with
  | t :: rest =>
    let v := t % s.cfg.tickModulus
    (v, (s.setEnv { s.env with tickScript := rest }).logCall (.ticks v))
  | [] =>
    let v := s.env.now % s.cfg.tickModulus
    (v, s.logCall (.ticks v))

/-- Item `k` of a stream that never pauses, as the answer to a request for `n` bytes: `ERR`, or one byte
(R456). -/
def endlessAnswer (n k : Nat) : RxAnswer :=
  match Config.endlessItem k with
  | none => .err
  | some b => .bytes ([b].take n)

/-- The receive stream's answer to a request for `n` bytes, and the stream after it: a draw if one is
prescribed, else the reference environment's (R147); with nothing queued, an item of a stream that never
pauses if there is one (R222; log 31). -/
def rxAnswer (n : Nat) (s : State) : RxAnswer × State :=
  match s.env.rxScript with
  | a :: rest => (a, s.setEnv { s.env with rxScript := rest })
  | [] =>
    if s.env.rxErr then (.err, s.setEnv { s.env with rxErr := false })
    else
      match s.env.rxQueue, s.env.rxEndless with
      | [], some k => (endlessAnswer n k, s.setEnv { s.env with rxEndless := some (k + 1) })
      | q, _ => (.bytes (q.take n), s.setEnv { s.env with rxQueue := q.drop n })

/-- What `Read(1)` gives the engine. -/
inductive ReadResult where
  | nothing
  | byte (b : Byte)
  | err
  /-- more than one byte: refused (R91) -/
  | outOfRange
deriving DecidableEq, Repr

/-- `Read(1)` (R14; storing reads take one byte, R252). -/
def read1 (s : State) : ReadResult × State :=
  match rxAnswer 1 s with
  | (a, t) =>
    (match a with
      | .err => .err
      | .bytes [] => .nothing
      | .bytes [b] => .byte b
      | .bytes (_ :: _ :: _) => .outOfRange,
     t.logCall (.read 1 a))

/-- What `Discard(DISCARD_MAX)` gives the engine. -/
inductive DiscardResult where
  | count (k : Nat)
  | err
  /-- more than was asked for: refused (R91) -/
  | outOfRange
deriving DecidableEq, Repr

/-- `Discard(DISCARD_MAX)` (R14, R89). -/
def discard (s : State) : DiscardResult × State :=
  match rxAnswer s.cfg.discardMax s with
  | (a, t) =>
    (match a with
      | .err => .err
      | .bytes bs => if bs.length ≤ s.cfg.discardMax then .count bs.length else .outOfRange,
     t.logCall (.discard s.cfg.discardMax a))

/-- What `Write(s)` gives the engine. -/
inductive WriteResult where
  | accepted (k : Nat)
  | err
  /-- more than was offered: refused (R91) -/
  | outOfRange
deriving DecidableEq, Repr

/-- `Write(seq)` (R14, R90). -/
def write (seq : List Byte) (s : State) : WriteResult × State :=
  match s.env.wrScript with
  | a :: rest =>
    (match a with
      | .err => .err
      | .accepted k => if k ≤ seq.length then .accepted k else .outOfRange,
     (s.setEnv { s.env with wrScript := rest }).logCall (.write seq a))
  | [] =>
    if s.env.wrErr then
      (.err, (s.setEnv { s.env with wrErr := false }).logCall (.write seq .err))
    else (.accepted seq.length, s.logCall (.write seq (.accepted seq.length)))

/-- `WriteComplete()` (R14). -/
def writeComplete (s : State) : Bool × State :=
  match s.env.doneScript with
  | d :: rest => (d, (s.setEnv { s.env with doneScript := rest }).logCall (.writeComplete d))
  | [] => (s.env.txDone, s.logCall (.writeComplete s.env.txDone))

/-- `TxEnable(b); S.txen <- b` (R50). -/
def txEnable (level : Bool) (s : State) : State :=
  (s.setBlk { s.blk with txen := level }).logCall (.txEnable level)

/-- The bytes that a call put on the wire: the accepted ones (R90). -/
def Call.wire : Call → List Byte
  | .write offered (.accepted k) => offered.take k
  | .write _ .err => []
  | .ticks _ => []
  | .read _ _ => []
  | .discard _ _ => []
  | .writeComplete _ => []
  | .txEnable _ => []
  | .status _ _ => []
  | .frameReady => []
  | .handler _ _ => []

/-- Every byte the block has put on the wire, in order (R91). -/
def Env.wire (e : Env) : List Byte := e.calls.flatMap Call.wire

/-! ### Construction -/

/-- The block's fields after RESET with a configuration (R440, R55), given the fields before it (the
thresholds of the other mode are not written; log 21) and the clock sample. -/
def Block.afterReset (c : Config) (b : Block) (now : Nat) : Block :=
  { st := match c.mode with
      | .rtu => .dump
      | .ascii => .idle
    station := 0#8
    faddr := 0#8
    len := 0
    baud := c.initBaud
    t15 := match c.mode with
      | .rtu => deriveT15 c c.initBaud
      | .ascii => b.t15
    t35 := match c.mode with
      | .rtu => deriveT35 c c.initBaud
      | .ascii => b.t35
    t1s := match c.mode with
      | .rtu => b.t1s
      | .ascii => deriveT1s c
    buf := []
    crc := 0xFFFF#16
    lrc := 0#8
    tRef := now
    rxN := 0
    gap := false
    nib := 0#4
    txPos := 0
    txen := false
    stat := (false, false)
    inPoll := false
    refused := false }

/-- `RESET(config)` (R440, R442): admitted in every state, it makes no call but one `Ticks()`; a
configuration outside R10 and R11 is refused (log 4, 5, 6). -/
def construct (s : State) : State :=
  if Config.valid s.resetCfg then
    match ticks { s with cfg := s.resetCfg } with
    | (now, t) => t.setBlk (Block.afterReset s.resetCfg s.blk now)
  else refuse .badConfiguration s

end Sys2Proof.Machine
end

