-- ==== Sys2Proof/Machine/Operands.lean ====
section
/-! DEFINITION. Operand assembly (30_encoding.md R131 to R134): the big-endian fields of a request,
the expected sizes, and register data on the wire. A request is given by its data bytes, so PDU byte
`i` is data byte `i − 1`. -/

namespace Sys2Proof.Machine

/-- PDU byte `i + 1`; 0 where the request has no such byte, which every validator rejects before any
field is used (R358, R359, R364, R365). -/
def dataByte (data : List Byte) (i : Nat) : Byte := data.getD i 0#8

/-- `address = BE16(1)` (R131). -/
def reqAddress (data : List Byte) : U16 := be16 (dataByte data 0) (dataByte data 1)

/-- `count` or `value`, `BE16(3)` (R131). -/
def reqCount (data : List Byte) : U16 := be16 (dataByte data 2) (dataByte data 3)

/-- `byte_count = buf[5]` (R131). -/
def reqByteCount (data : List Byte) : Nat := (dataByte data 4).toNat

/-- The data of a write-multiple request, PDU bytes 6 on (R124, R125). -/
def reqPayload (data : List Byte) : List Byte := data.drop 5

/-- `2·count` (R132). -/
def registerSize (count : U16) : Nat := 2 * count.toNat

/-- `ceil(count/8)` (R132). -/
def bitSize (count : U16) : Nat := (count.toNat + 7) / 8

/-- `[BE16(6 + 2j) for j in 0..count−1]` of a write-multiple-registers payload (R367). -/
def wordsOf : List Byte → List U16
  | hi :: lo :: rest => be16 hi lo :: wordsOf rest
  | _ => []

/-- Registers as wire bytes, big-endian (R84, R120). -/
def bytesOfWords (regs : List U16) : List Byte := regs.flatMap be16Bytes

/-- `[c[7:0], c[15:8]]`, the CRC field (R85, R134). -/
def crcBytes (c : U16) : List Byte := [loByte c, hiByte c]

/-- `(256 − s) mod 256` (R12, R134). -/
def negate8 (s : Byte) : Byte := 0#8 - s

end Sys2Proof.Machine
end

