-- ==== Sys2Proof/Machine/Checksum.lean ====
section
/-! DEFINITION. The checksum engines and their commands (40_checksum.md). -/

namespace Sys2Proof.Machine

/-- One of the 8 single-bit right shifts of R160. -/
def crcShift (c : U16) : U16 :=
  if c.getLsbD 0 then (c >>> 1) ^^^ 0xA001#16 else c >>> 1

/-- `crcShift`, `n` times. -/
def crcShifts : Nat → U16 → U16
  | 0, c => c
  | n + 1, c => crcShifts n (crcShift c)

/-- `crc_byte(c, b)` (R160). -/
def crcByte (c : U16) (b : Byte) : U16 := crcShifts 8 (c ^^^ b.setWidth 16)

/-- `crc_update(c, s)` (R161). -/
def crcUpdate : U16 → List Byte → U16
  | c, [] => c
  | c, b :: bs => crcUpdate (crcByte c b) bs

/-- `crc16(s)` (R161). -/
def crc16 (bs : List Byte) : U16 := crcUpdate 0xFFFF#16 bs

/-- `lrc_update(a, s)` (R165). -/
def lrcUpdate : Byte → List Byte → Byte
  | a, [] => a
  | a, b :: bs => lrcUpdate (a + b) bs

/-- `lrc(s)` (R166). -/
def lrc (bs : List Byte) : Byte := negate8 (lrcUpdate 0#8 bs)

/-- CRC16_UPDATE (R174). -/
def execCrc16Update (acc : U16) (bytes : List Byte) (s : State) : Host.Outcome State Fault Refusal :=
  .next (s.setResult (.u16 (crcUpdate acc bytes)))

/-- CRC16 (R175). -/
def execCrc16 (bytes : List Byte) (s : State) : Host.Outcome State Fault Refusal :=
  .next (s.setResult (.u16 (crc16 bytes)))

/-- LRC_UPDATE (R176). -/
def execLrcUpdate (acc : Byte) (bytes : List Byte) (s : State) : Host.Outcome State Fault Refusal :=
  .next (s.setResult (.u8 (lrcUpdate acc bytes)))

/-- LRC (R177). -/
def execLrc (bytes : List Byte) (s : State) : Host.Outcome State Fault Refusal :=
  .next (s.setResult (.u8 (lrc bytes)))

end Sys2Proof.Machine
end

