-- ==== Sys2Proof/Machine/Flags.lean ====
section
/-! DEFINITION. The flags derived from the engine state (10_state.md R54), the address acceptance
predicate (41_engine_commands.md R223) and the diagnostic notification (R220). -/

namespace Sys2Proof.Machine

/-- `frame_ready()` (R54, R210). -/
def St.isFrameReady : St → Bool
  | .frameReady => true
  | .exception | .dump | .idle | .receive | .rxAddrHi | .rxAddrLo | .rxDataHi | .rxDataLo | .rxLf
  | .queue | .collision | .txStart | .txAddress | .txPdu | .txChecksum | .txEnd | .txDrain
  | .txGuard => false

/-- `rx_active` (R54). -/
def St.rxActive : St → Bool
  | .receive | .rxAddrHi | .rxAddrLo | .rxDataHi | .rxDataLo | .rxLf => true
  | .exception | .dump | .idle | .frameReady | .queue | .collision | .txStart | .txAddress
  | .txPdu | .txChecksum | .txEnd | .txDrain | .txGuard => false

/-- `tx_active` (R54). -/
def St.txActive : St → Bool
  | .txStart | .txAddress | .txPdu | .txChecksum | .txEnd | .txDrain => true
  | .exception | .dump | .idle | .receive | .rxAddrHi | .rxAddrLo | .rxDataHi | .rxDataLo | .rxLf
  | .frameReady | .queue | .collision | .txGuard => false

/-- The states in which the application holds the buffer and the accessors are valid (R32, R211). -/
def St.held : St → Bool
  | .frameReady | .queue | .collision => true
  | .exception | .dump | .idle | .receive | .rxAddrHi | .rxAddrLo | .rxDataHi | .rxDataLo | .rxLf
  | .txStart | .txAddress | .txPdu | .txChecksum | .txEnd | .txDrain | .txGuard => false

/-- The states in which the host may compose (R212, R214, R216). -/
def St.composing : St → Bool
  | .queue | .collision => true
  | .exception | .dump | .idle | .receive | .rxAddrHi | .rxAddrLo | .rxDataHi | .rxDataLo | .rxLf
  | .frameReady | .txStart | .txAddress | .txPdu | .txChecksum | .txEnd | .txDrain
  | .txGuard => false

/-- Which states a mode has (R32: 11 in RTU, 17 in ASCII). -/
def St.inMode (m : Mode) : St → Bool
  | .exception | .idle | .frameReady | .queue | .collision | .txAddress | .txPdu | .txChecksum
  | .txDrain => true
  | .dump | .receive => decide (m = .rtu)
  | .rxAddrHi | .rxAddrLo | .rxDataHi | .rxDataLo | .rxLf | .txStart | .txEnd | .txGuard =>
    decide (m = .ascii)

/-- Who holds the PDU buffer (R32, R33). -/
inductive Holder where
  | nobody
  | reception
  | application
  | transmission
deriving DecidableEq, Repr

/-- The last column of R32's table. -/
def St.holder : St → Holder
  | .exception | .dump | .idle | .txGuard => .nobody
  | .receive | .rxAddrHi | .rxAddrLo | .rxDataHi | .rxDataLo | .rxLf => .reception
  | .frameReady | .queue | .collision => .application
  | .txStart | .txAddress | .txPdu | .txChecksum | .txEnd | .txDrain => .transmission

/-- `(rx_active, tx_active)` (R54, R220). -/
def St.statusPair (x : St) : Bool × Bool := (x.rxActive, x.txActive)

/-- `accept(a)` (R223). -/
def accept (station a : Byte) : Bool :=
  decide (station = 0#8) || decide (a = 0#8) || decide (a = station)

/-- `StatusUpdate()` (R220). -/
def statusUpdate (s : State) : State :=
  if s.cfg.diag = true ∧ s.blk.st.statusPair ≠ s.blk.stat then
    (s.setBlk { s.blk with stat := s.blk.st.statusPair }).logCall
      (.status s.blk.st.rxActive s.blk.st.txActive)
  else s

/-- `StatusUpdate()` at the end of a command, which runs only if the command changed `S.st` (R220;
log 12). -/
def endCommand (before after : State) : State :=
  if after.blk.st = before.blk.st then after else statusUpdate after

end Sys2Proof.Machine
end

