-- ==== Sys2Proof/Machine/Engine.lean ====
section
/-! DEFINITION. The frame engine's host commands, all but POLL and DISPATCH (41_engine_commands.md
R203 to R218; 70_reset_and_hazards.md R440; 30_encoding.md R141). -/

namespace Sys2Proof.Machine

/-! ### Acquisition and release -/

/-- `BEGIN_SEND()` (R203) as the host and the dispatcher call it. -/
def beginSend (s : State) : Bool × State :=
  match s.blk.st with
  | .idle | .frameReady => (true, endCommand s (s.goto .queue))
  | .collision => (true, s)
  | .exception | .dump | .receive | .rxAddrHi | .rxAddrLo | .rxDataHi | .rxDataLo | .rxLf | .queue
  | .txStart | .txAddress | .txPdu | .txChecksum | .txEnd | .txDrain | .txGuard => (false, s)

/-- COLLISION left by SEND or FINISHED (R204, R205): RTU to DUMP with a new timing reference, ASCII to
IDLE. -/
def leaveCollision (s : State) : State :=
  match s.cfg.mode with
  | .rtu =>
    match ticks s with
    | (now, t) => t.gotoAt .dump now
  | .ascii => s.goto .idle

/-- The transmit sequence entered from QUEUE (R204): accumulator and cursor reset, first phase, driver
enabled; no byte is written. -/
def startTransmit (s : State) : State :=
  match s.cfg.mode with
  | .rtu =>
    txEnable true (s.setBlk { s.blk with txPos := 0, crc := 0xFFFF#16, st := .txAddress })
  | .ascii =>
    txEnable true (s.setBlk { s.blk with txPos := 0, lrc := 0#8, st := .txStart })

/-- `SEND()` (R204) as the host and the dispatcher call it. -/
def sendFrame (s : State) : State :=
  match s.blk.st with
  | .collision => endCommand s (leaveCollision s)
  | .queue =>
    if s.cfg.bufferMax ≤ s.blk.len then endCommand s (raiseFatal .sendLength s)
    else endCommand s (startTransmit s)
  | .exception => s
  | .dump | .idle | .receive | .rxAddrHi | .rxAddrLo | .rxDataHi | .rxDataLo | .rxLf | .frameReady
  | .txStart | .txAddress | .txPdu | .txChecksum | .txEnd | .txDrain | .txGuard =>
    refuse .sendWithoutBeginSend s

/-- `FINISHED()` (R205) as the host and the dispatcher call it. -/
def finish (s : State) : State :=
  match s.blk.st with
  | .frameReady | .queue => endCommand s (s.goto .idle)
  | .collision => endCommand s (leaveCollision s)
  | .exception => s
  | .dump | .idle | .receive | .rxAddrHi | .rxAddrLo | .rxDataHi | .rxDataLo | .rxLf
  | .txStart | .txAddress | .txPdu | .txChecksum | .txEnd | .txDrain | .txGuard =>
    refuse .finishedWithoutHold s

/-! ### The commands -/

/-- RESET (R440). -/
def execReset (s : State) : Host.Outcome State Fault Refusal := .next (construct s)

/-- BEGIN_SEND (R203). -/
def execBeginSend (s : State) : Host.Outcome State Fault Refusal :=
  match beginSend s with
  | (ok, t) => .next (t.setResult (.bool ok))

/-- SEND (R204). -/
def execSend (s : State) : Host.Outcome State Fault Refusal := .next (sendFrame s)

/-- FINISHED (R205). -/
def execFinished (s : State) : Host.Outcome State Fault Refusal := .next (finish s)

/-- STATION_ADDRESS (R208). -/
def execStationAddress (s : State) : Host.Outcome State Fault Refusal :=
  .next (s.setResult (.u8 s.blk.station))

/-- SET_STATION_ADDRESS (R209), in every state. -/
def execSetStationAddress (addr : Byte) (s : State) : Host.Outcome State Fault Refusal :=
  .next (s.setBlk { s.blk with station := addr })

/-- FRAME_READY (R210). -/
def execFrameReady (s : State) : Host.Outcome State Fault Refusal :=
  .next (s.setResult (.bool s.blk.st.isFrameReady))

/-- FRAME_ADDRESS (R211): a free value outside FRAME_READY, QUEUE and COLLISION (U1). -/
def execFrameAddress (s : State) : Host.Outcome State Fault Refusal :=
  if s.blk.st.held then .next (s.setResult (.u8 s.blk.faddr))
  else .next (s.setResult (.u8 (Config.freeByte s.draws))).draw

/-- SET_FRAME_ADDRESS (R212). -/
def execSetFrameAddress (addr : Byte) (s : State) : Host.Outcome State Fault Refusal :=
  if s.blk.st.composing then .next (s.setBlk { s.blk with faddr := addr })
  else .next (refuse .notComposing s)

/-- BUFFER_READ (R213): a free value for an unwritten cell (U4) and outside FRAME_READY, QUEUE and
COLLISION (U2). -/
def execBufferRead (i : U16) (s : State) : Host.Outcome State Fault Refusal :=
  if s.cfg.bufferMax ≤ i.toNat then .next (refuse .outOfRange s)
  else if s.blk.st.held then .next (s.setResult (.u8 (s.cell i.toNat))).draw
  else .next (s.setResult (.u8 (Config.freeByte s.draws))).draw

/-- BUFFER_WRITE (R214). -/
def execBufferWrite (i : U16) (v : Byte) (s : State) : Host.Outcome State Fault Refusal :=
  if s.cfg.bufferMax ≤ i.toNat then .next (refuse .outOfRange s)
  else if s.blk.st.composing then .next (s.writeBuf i.toNat [v])
  else .next (refuse .notComposing s)

/-- BUFFER_LEN (R215): a free value in `0..BUFFER_MAX` outside FRAME_READY, QUEUE and COLLISION (U1). -/
def execBufferLen (s : State) : Host.Outcome State Fault Refusal :=
  if s.blk.st.held then .next (s.setResult (.u16 (BitVec.ofNat 16 s.blk.len)))
  else
    .next (s.setResult
      (.u16 (BitVec.ofNat 16 (Config.freeLength s.draws % (s.cfg.bufferMax + 1))))).draw

/-- SET_BUFFER_LEN (R216). -/
def execSetBufferLen (n : U16) (s : State) : Host.Outcome State Fault Refusal :=
  if s.cfg.bufferMax < n.toNat then .next (refuse .outOfRange s)
  else if s.blk.st.composing then .next (s.setLen n.toNat)
  else .next (refuse .notComposing s)

/-- BUFFER_MAX (R217). -/
def execBufferMax (s : State) : Host.Outcome State Fault Refusal :=
  .next (s.setResult (.u16 (BitVec.ofNat 16 s.cfg.bufferMax)))

/-- SETUP (R218, R41), in every state; the constants of the mode are derived again and checked
against R11 (log 27). -/
def setupBaud (baud : Nat) (s : State) : State :=
  if baud = 0 then refuse .baudZero s
  else if constantsFit s.cfg baud then
    match s.cfg.mode with
    | .rtu =>
      s.setBlk { s.blk with
        baud := baud, t15 := deriveT15 s.cfg baud, t35 := deriveT35 s.cfg baud }
    | .ascii => s.setBlk { s.blk with baud := baud, t1s := deriveT1s s.cfg }
  else refuse .constantTooLarge s

/-- SETUP (R218). -/
def execSetup (baud : U32) (s : State) : Host.Outcome State Fault Refusal :=
  .next (setupBaud baud.toNat s)

/-- A reserved command byte is refused (R141). -/
def execReservedCommand (_c : Byte) (s : State) : Host.Outcome State Fault Refusal :=
  .next (refuse .reservedCommand s)

end Sys2Proof.Machine
end

