-- ==== Sys2Proof/Machine/Handler.lean ====
section
/-! DEFINITION. The register handler as the dispatcher calls it (44_dispatcher.md R351 to R353). -/

namespace Sys2Proof.Machine

/-- Whether a handler implements a call of its own (R352). -/
def HandlerCall.implementedBy : HandlerCall → HandlerOps → Bool
  | .readCoils _ _, o => o.readCoils
  | .readDiscreteInputs _ _, o => o.readDiscreteInputs
  | .readHoldingRegisters _ _, o => o.readHoldingRegisters
  | .readInputRegisters _ _, o => o.readInputRegisters
  | .writeSingleCoil _ _, o => o.writeSingleCoil
  | .writeSingleRegister _ _, o => o.writeSingleRegister
  | .writeMultipleCoils _ _ _, o => o.writeMultipleCoils
  | .writeMultipleRegisters _ _ _, o => o.writeMultipleRegisters

/-- What an unimplemented call becomes (R352): a single write the multiple write with count 1, the
coil in bit 0 of one byte; every other call stays as it is. -/
def HandlerCall.delegate : HandlerCall → HandlerCall
  | .writeSingleCoil addr on => .writeMultipleCoils addr 1#16 [if on then 0x01#8 else 0x00#8]
  | .writeSingleRegister addr value => .writeMultipleRegisters addr 1#16 [value]
  | .readCoils addr count => .readCoils addr count
  | .readDiscreteInputs addr count => .readDiscreteInputs addr count
  | .readHoldingRegisters addr count => .readHoldingRegisters addr count
  | .readInputRegisters addr count => .readInputRegisters addr count
  | .writeMultipleCoils addr count bytes => .writeMultipleCoils addr count bytes
  | .writeMultipleRegisters addr count values => .writeMultipleRegisters addr count values

/-- The answer "illegal function" of an absent handler and of an unimplemented call (R352, R353). -/
def illegalFunctionAnswer : HandlerAnswer := { exc := 0x01#8, bytes := [], regs := [] }

/-- An answer nobody has prescribed (U3): a free exception code and, for a read, free data of the
size asked for (safe; log 8). -/
def freeAnswer (c : HandlerCall) (n : Nat) : HandlerAnswer :=
  { exc := Config.freeExc n
    bytes := match c with
      | .readCoils _ count | .readDiscreteInputs _ count =>
        (List.range (bitSize count)).map (Config.freeData n)
      | .readHoldingRegisters _ _ | .readInputRegisters _ _ | .writeSingleCoil _ _
      | .writeSingleRegister _ _ | .writeMultipleCoils _ _ _ | .writeMultipleRegisters _ _ _ => []
    regs := match c with
      | .readHoldingRegisters _ count | .readInputRegisters _ count =>
        (List.range count.toNat).map (Config.freeRegister n)
      | .readCoils _ _ | .readDiscreteInputs _ _ | .writeSingleCoil _ _
      | .writeSingleRegister _ _ | .writeMultipleCoils _ _ _ | .writeMultipleRegisters _ _ _ => [] }

/-- The handler agent answers a call it implements: a draw if one is prescribed, else free. -/
def agentAnswer (c : HandlerCall) (s : State) : HandlerAnswer × State :=
  match s.env.handlerScript with
  | a :: rest => (a, (s.setEnv { s.env with handlerScript := rest }).logCall (.handler c a))
  | [] => (freeAnswer c s.draws, (s.logCall (.handler c (freeAnswer c s.draws))).draw)

/-- A handler call (R351 to R353). A call the handler does not implement is not seen by the agent. -/
def callHandler (c : HandlerCall) (s : State) : HandlerAnswer × State :=
  match s.cfg.handler with
  | none => (illegalFunctionAnswer, s)
  | some ops =>
    if c.implementedBy ops then agentAnswer c s
    else if c.delegate.implementedBy ops then agentAnswer c.delegate s
    else (illegalFunctionAnswer, s)

end Sys2Proof.Machine
end

