-- ==== Sys2Proof/Machine/Dispatcher.lean ====
section
/-! DEFINITION. The slave dispatcher (44_dispatcher.md). Each function of R360 to R367 takes the
request's data bytes (PDU bytes 1 on) and answers its exception code (0 = success), or nothing when
the handler's answer had the wrong length, which is refused (R351). -/

namespace Sys2Proof.Machine

/-- 0x01 illegal function (R127). -/
def excIllegalFunction : Byte := 0x01#8

/-- 0x03 illegal data value (R127). -/
def excIllegalDataValue : Byte := 0x03#8

/-! ### Validators -/

/-- `ReadValidator` (R358), `size` being the data bytes of the response for the requested count. -/
def readValidator (size : U16 → Nat) (data : List Byte) (bufferMax : Nat) : Byte :=
  if data.length + 1 ≠ 5 then excIllegalDataValue
  else if (reqCount data).toNat = 0 then excIllegalDataValue
  else if bufferMax < 2 + size (reqCount data) then excIllegalDataValue
  else 0#8

/-- `WriteMultipleValidator` (R359). -/
def writeMultipleValidator (size : U16 → Nat) (data : List Byte) : Byte :=
  if data.length + 1 < 6 then excIllegalDataValue
  else if reqByteCount data ≠ size (reqCount data) then excIllegalDataValue
  else if reqByteCount data + 6 ≠ data.length + 1 then excIllegalDataValue
  else 0#8

/-! ### The functions -/

/-- A successful read response (R360, R362): byte count at 1, data from 2; byte 0 keeps the function
code. -/
def putReadResponse (payload : List Byte) (s : State) : State :=
  (s.writeBuf 1 (BitVec.ofNat 8 payload.length :: payload)).setLen (2 + payload.length)

/-- Read coils and discrete inputs (R360, R361). -/
def readBits (call : U16 → U16 → HandlerCall) (data : List Byte) (s : State) :
    Option Byte × State :=
  let v := readValidator bitSize data s.cfg.bufferMax
  if v ≠ 0#8 then (some v, s)
  else
    match callHandler (call (reqAddress data) (reqCount data)) s with
    | (a, t) =>
      if a.exc ≠ 0#8 then (some a.exc, t)
      else if a.bytes.length ≠ bitSize (reqCount data) then (none, t)
      else (some 0#8, putReadResponse a.bytes t)

/-- Read holding and input registers (R362, R363). -/
def readRegisters (call : U16 → U16 → HandlerCall) (data : List Byte) (s : State) :
    Option Byte × State :=
  let v := readValidator registerSize data s.cfg.bufferMax
  if v ≠ 0#8 then (some v, s)
  else
    match callHandler (call (reqAddress data) (reqCount data)) s with
    | (a, t) =>
      if a.exc ≠ 0#8 then (some a.exc, t)
      else if a.regs.length ≠ (reqCount data).toNat then (none, t)
      else (some 0#8, putReadResponse (bytesOfWords a.regs) t)

/-- A write's handler call and its 5-byte acknowledgement (R364 to R367). -/
def writeThrough (c : HandlerCall) (s : State) : Option Byte × State :=
  match callHandler c s with
  | (a, t) => if a.exc ≠ 0#8 then (some a.exc, t) else (some 0#8, t.setLen 5)

/-- `Function_01` (R360). -/
def function01 (data : List Byte) (s : State) : Option Byte × State := readBits .readCoils data s

/-- `Function_02` (R361). -/
def function02 (data : List Byte) (s : State) : Option Byte × State :=
  readBits .readDiscreteInputs data s

/-- `Function_03` (R362). -/
def function03 (data : List Byte) (s : State) : Option Byte × State :=
  readRegisters .readHoldingRegisters data s

/-- `Function_04` (R363). -/
def function04 (data : List Byte) (s : State) : Option Byte × State :=
  readRegisters .readInputRegisters data s

/-- `Function_05` (R364). -/
def function05 (data : List Byte) (s : State) : Option Byte × State :=
  if data.length + 1 ≠ 5 then (some excIllegalDataValue, s)
  else if reqCount data ≠ 0x0000#16 ∧ reqCount data ≠ 0xFF00#16 then (some excIllegalDataValue, s)
  else writeThrough (.writeSingleCoil (reqAddress data) (decide (reqCount data = 0xFF00#16))) s

/-- `Function_06` (R365). -/
def function06 (data : List Byte) (s : State) : Option Byte × State :=
  if data.length + 1 ≠ 5 then (some excIllegalDataValue, s)
  else writeThrough (.writeSingleRegister (reqAddress data) (reqCount data)) s

/-- `Function_0F` (R366). -/
def function0F (data : List Byte) (s : State) : Option Byte × State :=
  let v := writeMultipleValidator bitSize data
  if v ≠ 0#8 then (some v, s)
  else writeThrough (.writeMultipleCoils (reqAddress data) (reqCount data) (reqPayload data)) s

/-- `Function_10` (R367). -/
def function10 (data : List Byte) (s : State) : Option Byte × State :=
  let v := writeMultipleValidator registerSize data
  if v ≠ 0#8 then (some v, s)
  else
    writeThrough
      (.writeMultipleRegisters (reqAddress data) (reqCount data) (wordsOf (reqPayload data))) s

/-- Any other function code (R357): illegal function, no call, no length check. -/
def functionIllegal (s : State) : Option Byte × State := (some excIllegalFunction, s)

/-! ### The dispatch procedure -/

/-- Step 8 (R372): the 2-byte exception response. -/
def encodeException (fc exc : Byte) (s : State) : State :=
  (s.writeBuf 0 [fc ||| 0x80#8, exc]).setLen 2

/-- Steps 7 to 9 (R371 to R373), after a function answered `exc`. -/
def handBack (fc exc : Byte) (s : State) : State :=
  if s.blk.station ≠ 0#8 ∧ s.blk.faddr = 0#8 then finish s
  else sendFrame (if exc ≠ 0#8 then encodeException fc exc s else s)

/-- Steps 2 to 9 of `Dispatch()` (R354) for a request whose function is `body`, admitted in FRAME_READY
and COLLISION only (R224). A handler answer of the wrong length (R351, R53) is refused: the block stays
where the request found it, the buffer still held, with `S.refused` set. DESIGN CHOICE (log 30), unsafe:
under the attached dispatcher the micro-step of POLL then answers `continue`, so the POLL goes on from
FRAME_READY, with the frame still held, and returns a deadline; it does not end there. -/
def serve (fc : Byte) (body : State → Option Byte × State) (s : State) : State :=
  match s.blk.st with
  | .frameReady | .collision =>
    match beginSend s with
    | (false, t) => t
    | (true, t) =>
      match body t with
      | (none, u) => abandon s u
      | (some exc, u) => handBack fc exc u
  | .exception | .dump | .idle | .receive | .rxAddrHi | .rxAddrLo | .rxDataHi | .rxDataLo | .rxLf
  | .queue | .txStart | .txAddress | .txPdu | .txChecksum | .txEnd | .txDrain | .txGuard =>
    refuse .dispatchWithoutFrame s

/-- Step 3, the function table (R354, R357): the function a code selects, with the request's data. -/
def functionOf (fc : Byte) (data : List Byte) : State → Option Byte × State :=
  match fc.toNat with
  | 0x01 => function01 data
  | 0x02 => function02 data
  | 0x03 => function03 data
  | 0x04 => function04 data
  | 0x05 => function05 data
  | 0x06 => function06 data
  | 0x0F => function0F data
  | 0x10 => function10 data
  | _ => functionIllegal

/-- `Dispatch()` (R354): refused outside FRAME_READY and COLLISION, an empty PDU is acknowledged
(R355), any other is served by the function its byte 0 selects. An unwritten cell of the PDU reads
as a free value. -/
def dispatch (s : State) : State :=
  match s.blk.st with
  | .frameReady | .collision =>
    match s.pdu with
    | [] => finish s
    | fc :: data => serve fc (functionOf fc data) s.draw
  | .exception | .dump | .idle | .receive | .rxAddrHi | .rxAddrLo | .rxDataHi | .rxDataLo | .rxLf
  | .queue | .txStart | .txAddress | .txPdu | .txChecksum | .txEnd | .txDrain | .txGuard =>
    refuse .dispatchWithoutFrame s

/-! ### The meanings -/

/-- DISPATCH (R354). -/
def execDispatch (s : State) : Host.Outcome State Fault Refusal := .next (dispatch s)

/-- READ_COILS (R360): the request served (log 15). -/
def execReadCoils (data : List Byte) (s : State) : Host.Outcome State Fault Refusal :=
  .next (serve 0x01#8 (function01 data) s)

/-- READ_DISCRETE_INPUTS (R361). -/
def execReadDiscreteInputs (data : List Byte) (s : State) : Host.Outcome State Fault Refusal :=
  .next (serve 0x02#8 (function02 data) s)

/-- READ_HOLDING_REGISTERS (R362). -/
def execReadHoldingRegisters (data : List Byte) (s : State) : Host.Outcome State Fault Refusal :=
  .next (serve 0x03#8 (function03 data) s)

/-- READ_INPUT_REGISTERS (R363). -/
def execReadInputRegisters (data : List Byte) (s : State) : Host.Outcome State Fault Refusal :=
  .next (serve 0x04#8 (function04 data) s)

/-- WRITE_SINGLE_COIL (R364). -/
def execWriteSingleCoil (data : List Byte) (s : State) : Host.Outcome State Fault Refusal :=
  .next (serve 0x05#8 (function05 data) s)

/-- WRITE_SINGLE_REGISTER (R365). -/
def execWriteSingleRegister (data : List Byte) (s : State) : Host.Outcome State Fault Refusal :=
  .next (serve 0x06#8 (function06 data) s)

/-- WRITE_MULTIPLE_COILS (R366). -/
def execWriteMultipleCoils (data : List Byte) (s : State) : Host.Outcome State Fault Refusal :=
  .next (serve 0x0F#8 (function0F data) s)

/-- WRITE_MULTIPLE_REGISTERS (R367). -/
def execWriteMultipleRegisters (data : List Byte) (s : State) : Host.Outcome State Fault Refusal :=
  .next (serve 0x10#8 (function10 data) s)

/-- ILLEGAL_FUNCTION (R357). -/
def execIllegalFunction (fc : Byte) (_data : List Byte) (s : State) :
    Host.Outcome State Fault Refusal :=
  .next (serve fc functionIllegal s)

/-- EXCEPTION_RESPONSE (R372): the response encoded in the buffer the application composes in
(log 18); SEND hands it back (R373). -/
def execExceptionResponse (fc code : Byte) (s : State) : Host.Outcome State Fault Refusal :=
  if s.blk.st.composing then .next (encodeException fc code s)
  else .next (refuse .notComposing s)

end Sys2Proof.Machine
end

