-- ==== Sys2Proof/Machine/FrameReady.lean ====
section
/-! DEFINITION. The frame-ready notification (41_engine_commands.md R219, R225): the dispatcher, or an
external callback whose commands the environment holds (log 14). -/

namespace Sys2Proof.Machine

/-- The state an outcome leaves; the commands below always answer a next state. -/
def stateOf (s : State) : Host.Outcome State Fault Refusal → State
  | .next t => t
  | .fault _ => s
  | .refused _ => s

/-- A command issued by the frame-ready callback (R219): any but POLL, which is refused because a POLL
is running (R225). Only command words reach here; an input of another space is no command (R141). -/
def callbackCommand (i : Instr) (s : State) : State :=
  match i with
  | .reset => stateOf s (execReset s)
  | .poll => refuse .pollReentered s
  | .beginSend => stateOf s (execBeginSend s)
  | .send => stateOf s (execSend s)
  | .finished => stateOf s (execFinished s)
  | .stationAddress => stateOf s (execStationAddress s)
  | .setStationAddress addr => stateOf s (execSetStationAddress addr s)
  | .frameReady => stateOf s (execFrameReady s)
  | .frameAddress => stateOf s (execFrameAddress s)
  | .setFrameAddress addr => stateOf s (execSetFrameAddress addr s)
  | .bufferRead i => stateOf s (execBufferRead i s)
  | .bufferWrite i v => stateOf s (execBufferWrite i v s)
  | .bufferLen => stateOf s (execBufferLen s)
  | .setBufferLen n => stateOf s (execSetBufferLen n s)
  | .bufferMax => stateOf s (execBufferMax s)
  | .setup baud => stateOf s (execSetup baud s)
  | .crc16Update acc bytes => stateOf s (execCrc16Update acc bytes s)
  | .crc16 bytes => stateOf s (execCrc16 bytes s)
  | .lrcUpdate acc bytes => stateOf s (execLrcUpdate acc bytes s)
  | .lrc bytes => stateOf s (execLrc bytes s)
  | .dispatch => stateOf s (execDispatch s)
  | .reservedCommand c => stateOf s (execReservedCommand c s)
  | .readCoils _ | .readDiscreteInputs _ | .readHoldingRegisters _ | .readInputRegisters _
  | .writeSingleCoil _ | .writeSingleRegister _ | .writeMultipleCoils _
  | .writeMultipleRegisters _ | .illegalFunction _ _ | .exceptionResponse _ _
  | .rtuFrame _ _ _ _ | .asciiFrame _ _ _ | .asciiColon | .asciiCr | .asciiLf
  | .asciiHexDigit09 _ | .asciiHexDigitUpper _ | .asciiHexDigitLower _ | .asciiOther _ =>
    refuse .badWord s

/-- The callback's command words, in order (R200). -/
def callbackWords : List (List Byte) → State → State
  | [], s => s
  | w :: ws, s =>
    match decodeCommand w with
    | .ok i => callbackWords ws (callbackCommand i s)
    | .error _ => callbackWords ws (refuse .badWord s)

/-- The external frame-ready callback, if there is one (R219). -/
def externalCallback (s : State) : State :=
  match s.env.callback with
  | [] => s
  | words :: rest =>
    callbackWords words ((s.setEnv { s.env with callback := rest }).logCall .frameReady)

/-- `EnterFrameReady()` (R219). -/
def enterFrameReady (s : State) : State :=
  if s.cfg.dispatcherAttached then dispatch (s.goto .frameReady)
  else externalCallback (s.goto .frameReady)

end Sys2Proof.Machine
end

