-- ==== Sys2Proof/Machine/Rtu.lean ====
section
/-! DEFINITION. The micro-steps both variants share (41_engine_commands.md R206, R207) and those of the
binary engine (42_rtu_engine.md R250 to R266). Each receives `now`, the clock sample of its
iteration, and answers whether POLL goes on. -/

namespace Sys2Proof.Machine

/-- A micro-step's answer (R15, R201). -/
inductive StepAnswer where
  /-- `continue` -/
  | again
  /-- `return d` -/
  | done (d : Nat)
  /-- an agent's answer was out of its primitive's range, or the state is none of the mode: refused -/
  | refused
deriving DecidableEq, Repr

/-- `(k > 0 ? continue : return 0)` (R262, R316). -/
def idleAfter (k : Nat) : StepAnswer := if 0 < k then .again else .done 0

/-- `MicroStepHeld(now)` (R206): FRAME_READY and QUEUE. -/
def stepHeld (s : State) : StepAnswer × State :=
  match discard s with
  | (.outOfRange, t) => (.refused, t)
  | (.err, t) => (.again, t.goto .collision)
  | (.count k, t) => if k = 0 then (.done 0, t) else (.again, t.goto .collision)

/-- `MicroStepCollision(now)` (R207). -/
def stepCollision (s : State) : StepAnswer × State :=
  match discard s with
  | (.outOfRange, t) => (.refused, t)
  | (.err, t) => (.done 0, t)
  | (.count k, t) => if 0 < k then (.again, t) else (.done 0, t)

/-- A wait for `threshold` ticks of silence, in which every discarded byte or `ERR` restarts the
interval: DUMP (R251) and TX_GUARD (R323). -/
def stepSilence (threshold now : Nat) (s : State) : StepAnswer × State :=
  match discard s with
  | (.outOfRange, t) => (.refused, t)
  | (.err, t) => (.again, t.setBlk { t.blk with tRef := now })
  | (.count k, t) =>
    if 0 < k then (.again, t.setBlk { t.blk with tRef := now })
    else if threshold ≤ elapsed t.cfg t.blk.tRef now then (.again, t.goto .idle)
    else (.done (threshold - elapsed t.cfg t.blk.tRef now), t)

/-- RTU `IDLE` (R252 to R255). -/
def rtuIdle (now : Nat) (s : State) : StepAnswer × State :=
  match read1 s with
  | (.outOfRange, t) => (.refused, t)
  | (.nothing, t) => (.done 0, t)
  | (.err, t) => (.again, t.gotoAt .dump now)
  | (.byte a, t) =>
    if accept t.blk.station a then
      (.again, t.setBlk { t.blk with
        faddr := a, crc := crcByte 0xFFFF#16 a, rxN := 0, gap := false, tRef := now, st := .receive })
    else (.again, t.gotoAt .dump now)

/-- End of a binary frame (R261, R162). -/
def rtuEndOfFrame (s : State) : State :=
  if 2 ≤ s.blk.rxN ∧ s.blk.crc = 0x0000#16 then enterFrameReady (s.setLen (s.blk.rxN - 2))
  else s.goto .idle

/-- RTU `RECEIVE` (R256 to R261). A set gap comes before an overflow (R416). -/
def rtuReceive (now : Nat) (s : State) : StepAnswer × State :=
  match read1 s with
  | (.outOfRange, t) => (.refused, t)
  | (.err, t) => (.again, t.gotoAt .dump now)
  | (.byte b, t) =>
    if t.blk.gap then (.again, t.gotoAt .dump now)
    else if t.blk.rxN < t.cfg.bufferMax then
      (.again, (t.writeBuf t.blk.rxN [b]).setBlk
        { (t.writeBuf t.blk.rxN [b]).blk with
          rxN := t.blk.rxN + 1, crc := crcByte t.blk.crc b, tRef := now })
    else (.again, t.gotoAt .dump now)
  | (.nothing, t) =>
    let e := elapsed t.cfg t.blk.tRef now
    if e < t.blk.t35 then
      if t.blk.t15 ≤ e then (.done (t.blk.t35 - e), t.setBlk { t.blk with gap := true })
      else (.done (t.blk.t15 - e), t)
    else (.again, rtuEndOfFrame t)

/-- A transmission aborted by an `ERR` of the echo discard (R262, R316), to `x`. -/
def abortTransmit (x : St) (now : Nat) (s : State) : State := (txEnable false s).gotoAt x now

/-- `TX_ADDRESS` (R263), after the discard of `k` echo bytes. -/
def rtuTxAddress (k : Nat) (s : State) : StepAnswer × State :=
  match write [s.blk.faddr] s with
  | (.outOfRange, t) => (.refused, t)
  | (.err, t) => (.done 0, raiseFatal .writeError t)
  | (.accepted w, t) =>
    if w = 0 then (idleAfter k, t)
    else
      (.again, t.setBlk { t.blk with crc := crcByte t.blk.crc t.blk.faddr, txPos := 0, st := .txPdu })

/-- `TX_PDU` (R264). The chunk is read from the buffer once per micro-step (log 9). -/
def rtuTxPdu (k : Nat) (s : State) : StepAnswer × State :=
  if s.blk.txPos = s.blk.len then
    (.again, s.setBlk { s.blk with txPos := 0, st := .txChecksum })
  else
    match write (s.cells s.blk.txPos s.blk.len) s.draw with
    | (.outOfRange, t) => (.refused, t)
    | (.err, t) => (.done 0, raiseFatal .writeError t)
    | (.accepted w, t) =>
      if w = 0 then (idleAfter k, t)
      else
        (.again, t.setBlk { t.blk with
          crc := crcUpdate t.blk.crc ((s.cells s.blk.txPos s.blk.len).take w)
          txPos := t.blk.txPos + w })

/-- `TX_CHECKSUM` (R265): low byte, then high byte. -/
def rtuTxChecksum (k : Nat) (s : State) : StepAnswer × State :=
  if s.blk.txPos = 2 then (.again, s.goto .txDrain)
  else
    match write ((crcBytes s.blk.crc).drop s.blk.txPos) s with
    | (.outOfRange, t) => (.refused, t)
    | (.err, t) => (.done 0, raiseFatal .writeError t)
    | (.accepted w, t) =>
      if w = 0 then (idleAfter k, t)
      else (.again, t.setBlk { t.blk with txPos := t.blk.txPos + w })

/-- `TX_DRAIN` (R266, R322): driver released when the bytes have left, then the guard state `x`. -/
def txDrain (x : St) (now k : Nat) (s : State) : StepAnswer × State :=
  match writeComplete s with
  | (true, t) => (.again, (txEnable false t).gotoAt x now)
  | (false, t) => (idleAfter k, t)

/-- The prelude of every transmit micro-step (R262, R316): discard the echo, abort on `ERR` to `x`, else
the phase's own step. -/
def stepTransmit (x : St) (now : Nat) (phase : Nat → State → StepAnswer × State) (s : State) :
    StepAnswer × State :=
  match discard s with
  | (.outOfRange, t) => (.refused, t)
  | (.err, t) => (.again, abortTransmit x now t)
  | (.count k, t) => phase k t

/-- `MicroStep_RTU` (R250), for the states R206 and R207 do not cover; a state that is none of RTU's has
no rule (log 20). -/
def stepRtu (now : Nat) (s : State) : StepAnswer × State :=
  match s.blk.st with
  | .dump => stepSilence s.blk.t35 now s
  | .idle => rtuIdle now s
  | .receive => rtuReceive now s
  | .txAddress => stepTransmit .dump now rtuTxAddress s
  | .txPdu => stepTransmit .dump now rtuTxPdu s
  | .txChecksum => stepTransmit .dump now rtuTxChecksum s
  | .txDrain => stepTransmit .dump now (txDrain .dump now) s
  | .exception | .frameReady | .queue | .collision | .rxAddrHi | .rxAddrLo | .rxDataHi | .rxDataLo
  | .rxLf | .txStart | .txEnd | .txGuard => (.refused, s)

end Sys2Proof.Machine
end

