-- ==== Sys2Proof/Machine/Ascii.lean ====
section
/-! DEFINITION. The micro-steps of the character engine (43_ascii_engine.md R300 to R323). -/

namespace Sys2Proof.Machine

/-- Start, or restart, of a frame at `:` (R304). -/
def asciiStart (now : Nat) (s : State) : State :=
  s.setBlk { s.blk with lrc := 0#8, rxN := 0, tRef := now, st := .rxAddrHi }

/-- ASCII `IDLE` (R301 to R304). -/
def asciiIdle (now : Nat) (s : State) : StepAnswer × State :=
  match read1 s with
  | (.outOfRange, t) => (.refused, t)
  | (.nothing, t) => (.done 0, t)
  | (.err, t) => (.again, t.setBlk { t.blk with tRef := now })
  | (.byte c, t) => if c = 0x3A#8 then (.again, asciiStart now t) else (.again, t)

/-- `RX_ADDR_HI`, any character but `:` (R305, R313). -/
def asciiAddrHi (now : Nat) (c : Byte) (s : State) : State :=
  match hexval c with
  | some h => s.setBlk { s.blk with nib := h, tRef := now, st := .rxAddrLo }
  | none => s.gotoAt .idle now

/-- `RX_ADDR_LO` (R306, R307, R313). -/
def asciiAddrLo (now : Nat) (c : Byte) (s : State) : State :=
  match hexval c with
  | some l =>
    let a := nibbles s.blk.nib l
    if accept s.blk.station a then
      s.setBlk { s.blk with
        faddr := a, lrc := lrcUpdate s.blk.lrc [a], tRef := now, st := .rxDataHi }
    else s.gotoAt .idle now
  | none => s.gotoAt .idle now

/-- `RX_DATA_HI` (R308, R309, R313). -/
def asciiDataHi (now : Nat) (c : Byte) (s : State) : State :=
  match hexval c with
  | some h => s.setBlk { s.blk with nib := h, tRef := now, st := .rxDataLo }
  | none => if c = 0x0D#8 then s.gotoAt .rxLf now else s.gotoAt .idle now

/-- `RX_DATA_LO` (R310, R311, R313). -/
def asciiDataLo (now : Nat) (c : Byte) (s : State) : State :=
  match hexval c with
  | some l =>
    let b := nibbles s.blk.nib l
    if s.blk.rxN < s.cfg.bufferMax then
      (s.writeBuf s.blk.rxN [b]).setBlk
        { (s.writeBuf s.blk.rxN [b]).blk with
          rxN := s.blk.rxN + 1, lrc := lrcUpdate s.blk.lrc [b], tRef := now, st := .rxDataHi }
    else s.gotoAt .idle now
  | none => s.gotoAt .idle now

/-- End of a character frame (R312, R167). -/
def asciiEndOfFrame (s : State) : State :=
  if 1 ≤ s.blk.rxN ∧ s.blk.lrc = 0x00#8 then enterFrameReady (s.setLen (s.blk.rxN - 1))
  else s.goto .idle

/-- `RX_LF` (R312, R313). -/
def asciiLf (now : Nat) (c : Byte) (s : State) : State :=
  if c = 0x0A#8 then asciiEndOfFrame s else s.gotoAt .idle now

/-- A reception state, whose own rule for a character that is not `:` is `on` (R304, R314, R315). -/
def asciiRx (now : Nat) (on : Byte → State → State) (s : State) : StepAnswer × State :=
  match read1 s with
  | (.outOfRange, t) => (.refused, t)
  | (.err, t) => (.again, t.gotoAt .idle now)
  | (.byte c, t) => if c = 0x3A#8 then (.again, asciiStart now t) else (.again, on c t)
  | (.nothing, t) =>
    if t.blk.t1s ≤ elapsed t.cfg t.blk.tRef now then (.again, t.goto .idle)
    else (.done (t.blk.t1s - elapsed t.cfg t.blk.tRef now), t)

/-- `PhaseWrite(seq, next, exit)` (R317); `accepted w` is what a phase does besides when `Write` accepts
`w` characters (R319). -/
def phaseWrite (seq : List Byte) (next : St) (exit : Block → Block)
    (accepted : Nat → Block → Block) (k : Nat) (s : State) : StepAnswer × State :=
  if s.blk.txPos = seq.length then
    (.again, s.setBlk { exit s.blk with txPos := 0, st := next })
  else
    match write (seq.drop s.blk.txPos) s with
    | (.outOfRange, t) => (.refused, t)
    | (.err, t) => (.done 0, raiseFatal .writeError t)
    | (.accepted w, t) =>
      if w = 0 then (idleAfter k, t)
      else (.again, t.setBlk { accepted w t.blk with txPos := t.blk.txPos + w })

/-- Nothing besides the cursor. -/
def noMore (_w : Nat) (b : Block) : Block := b

/-- `TX_START` (R317): `:`. -/
def asciiTxStart (k : Nat) (s : State) : StepAnswer × State :=
  phaseWrite [0x3A#8] .txAddress id noMore k s

/-- `TX_ADDRESS` (R318). -/
def asciiTxAddress (k : Nat) (s : State) : StepAnswer × State :=
  phaseWrite (hex2 s.blk.faddr) .txPdu (fun b => { b with lrc := lrcUpdate b.lrc [b.faddr] })
    noMore k s

/-- `TX_PDU` (R319): the LRC takes the bytes whose second digit has been accepted. The PDU is read from
the buffer once per micro-step (log 9). -/
def asciiTxPdu (k : Nat) (s : State) : StepAnswer × State :=
  phaseWrite (hexAll s.pdu) .txChecksum id
    (fun w b => { b with
      lrc := lrcUpdate b.lrc
        ((s.pdu.drop (b.txPos / 2)).take ((b.txPos + w) / 2 - b.txPos / 2)) })
    k s.draw

/-- `TX_CHECKSUM` (R320). -/
def asciiTxChecksum (k : Nat) (s : State) : StepAnswer × State :=
  phaseWrite (hex2 (negate8 s.blk.lrc)) .txEnd id noMore k s

/-- `TX_END` (R321): CR, LF. -/
def asciiTxEnd (k : Nat) (s : State) : StepAnswer × State :=
  phaseWrite [0x0D#8, 0x0A#8] .txDrain id noMore k s

/-- `MicroStep_ASCII` (R300), for the states R206 and R207 do not cover; a state that is none of ASCII's
has no rule (log 20). -/
def stepAscii (now : Nat) (s : State) : StepAnswer × State :=
  match s.blk.st with
  | .idle => asciiIdle now s
  | .rxAddrHi => asciiRx now (asciiAddrHi now) s
  | .rxAddrLo => asciiRx now (asciiAddrLo now) s
  | .rxDataHi => asciiRx now (asciiDataHi now) s
  | .rxDataLo => asciiRx now (asciiDataLo now) s
  | .rxLf => asciiRx now (asciiLf now) s
  | .txStart => stepTransmit .idle now asciiTxStart s
  | .txAddress => stepTransmit .idle now asciiTxAddress s
  | .txPdu => stepTransmit .idle now asciiTxPdu s
  | .txChecksum => stepTransmit .idle now asciiTxChecksum s
  | .txEnd => stepTransmit .idle now asciiTxEnd s
  | .txDrain => stepTransmit .idle now (txDrain .txGuard now) s
  | .txGuard => stepSilence s.cfg.asciiGuardTicks now s
  | .exception | .frameReady | .queue | .collision | .dump | .receive => (.refused, s)

end Sys2Proof.Machine
end

