-- ==== Sys2Proof/Machine/Poll.lean ====
section
/-! DEFINITION. POLL (41_engine_commands.md R201, R202, R206, R207, R220, R222): its micro-step, its
loop and the command. -/

namespace Sys2Proof.Machine

/-- The micro-step of a state (R201's case). -/
def stepState (now : Nat) (s : State) : StepAnswer × State :=
  match s.blk.st with
  | .exception => (.done 0, s)
  | .frameReady | .queue => stepHeld s
  | .collision => stepCollision s
  | .dump | .idle | .receive | .rxAddrHi | .rxAddrLo | .rxDataHi | .rxDataLo | .rxLf
  | .txStart | .txAddress | .txPdu | .txChecksum | .txEnd | .txDrain | .txGuard =>
    match s.cfg.mode with
    | .rtu => stepRtu now s
    | .ascii => stepAscii now s

/-- One micro-step (R201): one clock sample (D9), the state's rule, StatusUpdate. A refused answer of an
agent leaves the block where the micro-step began (log 10). -/
def microStep (s : State) : StepAnswer × State :=
  match ticks s with
  | (now, s1) =>
    match stepState now s1 with
    | (.refused, t) => (.refused, abandon s t)
    | (.again, t) => (.again, statusUpdate t)
    | (.done d, t) => (.done d, statusUpdate t)

/-- No POLL is executing any more: `S.in_poll <- false`, and its loop is over. -/
def leavePoll (s : State) : State :=
  (s.setBlk { s.blk with inPoll := false }).setPolling false

/-- The end of a POLL with deadline `d`. -/
def endPoll (d : Nat) (s : State) : State := (leavePoll s).setResult (.deadline d)

/-- The loop of R201, for at most `n` micro-steps; with none left the loop stays under way and the next
step takes it further (log 13), without end under a stream that never pauses (R222, R456). Nothing a
micro-step does ends it but `return d` (R15) or a refusal (log 10), a RESET of the frame-ready callback
included, which clears `S.in_poll` (R440, R457; log 33). -/
def pollLoop : Nat → State → State
  | 0, s => s
  | n + 1, s =>
    match microStep s with
    | (.again, t) => pollLoop n t
    | (.done d, t) => endPoll d t
    | (.refused, t) => leavePoll t

/-- What the streams still hold for a POLL to consume, a stream that never pauses aside (R222). -/
def Env.pending (e : Env) : Nat :=
  e.rxQueue.length + e.rxErr.toNat + e.wrErr.toNat + e.rxScript.length + e.wrScript.length

/-- Micro-steps that are enough for a POLL to return where the stream falls silent: between two
consumptions the engine passes through at most 18 states (R222; log 13). -/
def pollFuel (s : State) : Nat := 20 * s.env.pending + 20

/-- The loop, with fuel for everything the streams hold: a POLL the fuel does not end is still under way
(`State.polling`) and goes on with the next step. -/
def runPoll (s : State) : State := pollLoop (pollFuel s) s

/-- The start of the loop of R201: `S.in_poll <- true`. -/
def enterPoll (s : State) : State := (s.setBlk { s.blk with inPoll := true }).setPolling true

/-- `POLL()` (R201, R202, R225). -/
def poll (s : State) : State :=
  if s.blk.inPoll || s.polling then refuse .pollReentered s
  else
    match s.blk.st with
    | .exception => s.setResult (.deadline 0)
    | .dump | .idle | .receive | .rxAddrHi | .rxAddrLo | .rxDataHi | .rxDataLo | .rxLf
    | .frameReady | .queue | .collision | .txStart | .txAddress | .txPdu | .txChecksum | .txEnd
    | .txDrain | .txGuard => runPoll (enterPoll s)

/-- POLL (R201). -/
def execPoll (s : State) : Host.Outcome State Fault Refusal := .next (poll s)

end Sys2Proof.Machine
end

