-- ==== Sys2Proof/Machine/Frames.lean ====
section
/-! DEFINITION. The inputs that arrive on the receive stream as instructions: one character of the ASCII
framer (30_encoding.md R112) and a whole frame of either wire format (R110, R111). Each is the
micro-steps that POLL runs when the stream delivers those bytes (log 16, 17). -/

namespace Sys2Proof.Machine

/-- One byte arrives: one micro-step whose `Read` or `Discard` is answered with it. In EXCEPTION no
input is read and the byte accumulates in the stream (R404). DESIGN CHOICE (log 34), unsafe: where the
byte stands among bytes queued before it the spec leaves open; the micro-step reads it ahead of
`rxQueue` and of the prescribed draws, which stay for later calls, and in EXCEPTION it is queued behind
`rxQueue`. -/
def arrive (b : Byte) (s : State) : State :=
  match s.blk.st with
  | .exception => s.setEnv { s.env with rxQueue := s.env.rxQueue ++ [b] }
  | .dump | .idle | .receive | .rxAddrHi | .rxAddrLo | .rxDataHi | .rxDataLo | .rxLf
  | .frameReady | .queue | .collision | .txStart | .txAddress | .txPdu | .txChecksum | .txEnd
  | .txDrain | .txGuard =>
    (microStep (s.setEnv { s.env with rxScript := .bytes [b] :: s.env.rxScript })).2

/-- Bytes arrive in order. -/
def arriveAll : List Byte → State → State
  | [], s => s
  | b :: bs, s => arriveAll bs (arrive b s)

/-- `T35` ticks of silence after the last byte (R114): the micro-step of RECEIVE or DUMP that finds no
byte and the threshold reached (R251, R261). No other state waits for `T35`. -/
def silence (s : State) : State :=
  match s.blk.st with
  | .receive | .dump =>
    (microStep (s.setEnv { s.env with
      rxScript := .bytes [] :: s.env.rxScript
      tickScript := (s.blk.tRef + s.blk.t35) :: s.env.tickScript })).2
  | .exception | .idle | .rxAddrHi | .rxAddrLo | .rxDataHi | .rxDataLo | .rxLf | .frameReady
  | .queue | .collision | .txStart | .txAddress | .txPdu | .txChecksum | .txEnd | .txDrain
  | .txGuard => s

/-- RTU_FRAME (R110, R114): the frame's bytes arrive, then `T35` of silence. -/
def execRtuFrame (address : Byte) (pdu : List Byte) (crcLo crcHi : Byte) (s : State) :
    Host.Outcome State Fault Refusal :=
  .next (silence (arriveAll (encode (.rtuFrame address pdu crcLo crcHi)) s))

/-- ASCII_FRAME (R111): the frame's characters arrive. -/
def execAsciiFrame (address : Byte) (pdu : List Byte) (lrc : Byte) (s : State) :
    Host.Outcome State Fault Refusal :=
  .next (arriveAll (encode (.asciiFrame address pdu lrc)) s)

/-- ASCII_COLON (R304). -/
def execAsciiColon (s : State) : Host.Outcome State Fault Refusal := .next (arrive 0x3A#8 s)

/-- ASCII_CR (R309, R313). -/
def execAsciiCr (s : State) : Host.Outcome State Fault Refusal := .next (arrive 0x0D#8 s)

/-- ASCII_LF (R312, R313). -/
def execAsciiLf (s : State) : Host.Outcome State Fault Refusal := .next (arrive 0x0A#8 s)

/-- ASCII_HEX_DIGIT_0_9 (R168, R305 to R311). -/
def execAsciiHexDigit09 (c : Byte) (s : State) : Host.Outcome State Fault Refusal :=
  .next (arrive c s)

/-- ASCII_HEX_DIGIT_UPPER (R168, R305 to R311). -/
def execAsciiHexDigitUpper (c : Byte) (s : State) : Host.Outcome State Fault Refusal :=
  .next (arrive c s)

/-- ASCII_HEX_DIGIT_LOWER (R168, R305 to R311). -/
def execAsciiHexDigitLower (c : Byte) (s : State) : Host.Outcome State Fault Refusal :=
  .next (arrive c s)

/-- ASCII_OTHER (R130, R303, R313). -/
def execAsciiOther (c : Byte) (s : State) : Host.Outcome State Fault Refusal := .next (arrive c s)

end Sys2Proof.Machine
end

