-- ==== Sys2Proof/Machine/Outside.lean ====
section
/-! DEFINITION. The outside of the block: stimuli of the script and its pseudo-instructions
(30_encoding.md R145, R146), the encoding of results (R140), and what a step fetches. -/

namespace Sys2Proof.Machine

/-- A result in the layout of R140. A deadline is sent as 4 bytes: its low 32 bits (log 22). -/
def encodeResult : Result → List Byte
  | .none => []
  | .deadline d => be32Bytes (BitVec.ofNat 32 d)
  | .bool b => [if b then 0x01#8 else 0x00#8]
  | .u8 v => [v]
  | .u16 v => be16Bytes v

/-- `RXRTU a p0 p1 ...` (R146). -/
def rxRtu (address : Byte) (pdu : List Byte) : Input :=
  .rx (address :: (pdu ++ crcBytes (crc16 (address :: pdu))))

/-- `RXASCII a p0 p1 ...` (R146). -/
def rxAscii (address : Byte) (pdu : List Byte) : Input :=
  .rx (encode (.asciiFrame address pdu (lrc (address :: pdu))))

/-- The characters an `RXSTR` string stands for: `\r` is CR, `\n` is LF (R146), any other character,
a lone backslash too, itself (log 32). -/
def unescape : List Char → List Char
  | '\\' :: 'r' :: cs => '\r' :: unescape cs
  | '\\' :: 'n' :: cs => '\n' :: unescape cs
  | c :: cs => c :: unescape cs
  | [] => []

/-- The bytes of a script string: its characters in UTF-8, which is ASCII for ASCII characters (log 32). -/
def stringBytes (cs : List Char) : List Byte :=
  (unescape cs).flatMap fun c => (String.utf8EncodeChar c).map UInt8.toBitVec

/-- `RXSTR "..."` (R146): `RX` of the string's bytes. -/
def rxStr (str : String) : Input := .rx (stringBytes str.toList)

/-- `WRBUF i p(i)` for each byte from index `i` on. -/
def loadFrom (i : Nat) : List Byte → List Input
  | [] => []
  | p :: ps => .word (encode (.bufferWrite (BitVec.ofNat 16 i) p)) :: loadFrom (i + 1) ps

/-- `LOADPDU p0 p1 ...` (R146). -/
def loadPdu (pdu : List Byte) : List Input :=
  loadFrom 0 pdu ++ [.word (encode (.setBufferLen (BitVec.ofNat 16 pdu.length)))]

/-- What a stimulus does to the agents (R145, R147); a command word is not one. -/
def stimulate (x : Input) (s : State) : State :=
  match x with
  | .word _ => s
  | .setTicks t => s.setEnv { s.env with now := t % s.cfg.tickModulus }
  | .wait d => s.setEnv { s.env with now := (s.env.now + d) % s.cfg.tickModulus }
  | .rx bs => s.setEnv { s.env with rxQueue := s.env.rxQueue ++ bs }
  | .rxErr => s.setEnv { s.env with rxErr := true }
  | .wrErr => s.setEnv { s.env with wrErr := true }
  | .txBusy => s.setEnv { s.env with txDone := false }
  | .txDone => s.setEnv { s.env with txDone := true }
  | .rxEndless start => s.setEnv { s.env with rxEndless := start }
  | .configure c => { s with resetCfg := c }

/-- Taking the next input away. -/
def State.dropInput (s : State) : State :=
  s.setEnv { s.env with inputs := s.env.inputs.drop 1 }

/-- Placing a command word where the next step fetches: first among the inputs, no POLL running. -/
def placeWord (bytes : List Byte) (s : State) : State :=
  leavePoll (s.setEnv { s.env with inputs := .word bytes :: s.env.inputs })

end Sys2Proof.Machine
end

