-- ==== Sys2Proof/Machine/Dispatch.lean ====
section
/-! DEFINITION. One arm per constructor of `Instr`: the meaning of each encoded input. -/

namespace Sys2Proof.Machine

def exec (i : Instr) (s : State) : Host.Outcome State Fault Refusal :=
  match i with
  | .reset => Sys2Proof.Machine.execReset s
  | .poll => Sys2Proof.Machine.execPoll s
  | .beginSend => Sys2Proof.Machine.execBeginSend s
  | .send => Sys2Proof.Machine.execSend s
  | .finished => Sys2Proof.Machine.execFinished s
  | .stationAddress => Sys2Proof.Machine.execStationAddress s
  | .setStationAddress addr => Sys2Proof.Machine.execSetStationAddress addr s
  | .frameReady => Sys2Proof.Machine.execFrameReady s
  | .frameAddress => Sys2Proof.Machine.execFrameAddress s
  | .setFrameAddress addr => Sys2Proof.Machine.execSetFrameAddress addr s
  | .bufferRead idx => Sys2Proof.Machine.execBufferRead idx s
  | .bufferWrite idx v => Sys2Proof.Machine.execBufferWrite idx v s
  | .bufferLen => Sys2Proof.Machine.execBufferLen s
  | .setBufferLen n => Sys2Proof.Machine.execSetBufferLen n s
  | .bufferMax => Sys2Proof.Machine.execBufferMax s
  | .setup baud => Sys2Proof.Machine.execSetup baud s
  | .crc16Update acc bytes => Sys2Proof.Machine.execCrc16Update acc bytes s
  | .crc16 bytes => Sys2Proof.Machine.execCrc16 bytes s
  | .lrcUpdate acc bytes => Sys2Proof.Machine.execLrcUpdate acc bytes s
  | .lrc bytes => Sys2Proof.Machine.execLrc bytes s
  | .dispatch => Sys2Proof.Machine.execDispatch s
  | .reservedCommand c => Sys2Proof.Machine.execReservedCommand c s
  | .readCoils data => Sys2Proof.Machine.execReadCoils data s
  | .readDiscreteInputs data => Sys2Proof.Machine.execReadDiscreteInputs data s
  | .readHoldingRegisters data => Sys2Proof.Machine.execReadHoldingRegisters data s
  | .readInputRegisters data => Sys2Proof.Machine.execReadInputRegisters data s
  | .writeSingleCoil data => Sys2Proof.Machine.execWriteSingleCoil data s
  | .writeSingleRegister data => Sys2Proof.Machine.execWriteSingleRegister data s
  | .writeMultipleCoils data => Sys2Proof.Machine.execWriteMultipleCoils data s
  | .writeMultipleRegisters data => Sys2Proof.Machine.execWriteMultipleRegisters data s
  | .illegalFunction fc data => Sys2Proof.Machine.execIllegalFunction fc data s
  | .exceptionResponse fc code => Sys2Proof.Machine.execExceptionResponse fc code s
  | .rtuFrame address pdu crcLo crcHi => Sys2Proof.Machine.execRtuFrame address pdu crcLo crcHi s
  | .asciiFrame address pdu lrc => Sys2Proof.Machine.execAsciiFrame address pdu lrc s
  | .asciiColon => Sys2Proof.Machine.execAsciiColon s
  | .asciiCr => Sys2Proof.Machine.execAsciiCr s
  | .asciiLf => Sys2Proof.Machine.execAsciiLf s
  | .asciiHexDigit09 c => Sys2Proof.Machine.execAsciiHexDigit09 c s
  | .asciiHexDigitUpper c => Sys2Proof.Machine.execAsciiHexDigitUpper c s
  | .asciiHexDigitLower c => Sys2Proof.Machine.execAsciiHexDigitLower c s
  | .asciiOther c => Sys2Proof.Machine.execAsciiOther c s

end Sys2Proof.Machine
end

