-- ==== Sys2Proof/Machine/Step.lean ====
section
/-! DEFINITION. One step of the machine: the POLL under way goes on, or the next input is taken; a
command word is decoded and executed, a word that is no command is refused (30_encoding.md R141), a
stimulus changes the agents, and with no input the block does nothing (41_engine_commands.md R200). -/

namespace Sys2Proof.Machine

/-- One step (log 2, 13, 33). -/
def step (s : State) : Host.Outcome State Fault Refusal :=
  if s.polling then .next (runPoll s)
  else
    match s.env.inputs with
    | [] => .next s
    | .word bytes :: _ =>
      match decodeCommand bytes with
      | .ok i => exec i s.dropInput
      | .error _ => .next (refuse .badWord s.dropInput)
    | x :: _ => .next (stimulate x s.dropInput)

/-- `s` with a table word placed where `step` fetches its next instruction (log 2). -/
def State.withFetchWord (s : State) (nbits w : Nat) : State := placeWord (tableWord nbits w) s

end Sys2Proof.Machine
end

