-- ==== Sys2Proof/Safety.lean ====
section
/-! DEFINITION. What counts as a safe state, in the terms claims use: no refusal so far (10_state.md
R53), the invariant of every step (10_state.md R32 to R52, 00_scope.md R11), the accumulators'
invariant (40_checksum.md R162, R167), and the bytes a transmission still has to write
(42_rtu_engine.md R267, 43_ascii_engine.md R324). -/

namespace Sys2Proof.Machine

/-- Nothing has been refused (R53). -/
abbrev State.Safe (s : State) : Prop := s.blk.refused = false

/-! ### The invariant -/

/-- Lengths and the buffer stay within `BUFFER_MAX` (R37, R46, R82), in canonical form. -/
abbrev Block.BufferOk (c : Config) (b : Block) : Prop :=
  b.len ≤ c.bufferMax ∧ b.rxN ≤ c.bufferMax ∧ Memory.wf b.buf = true
    ∧ Memory.below b.buf c.bufferMax = true

/-- The timing constants of the mode are at least 2 and fit the tick type; so does the reference
(R11, R38 to R40, R45). -/
abbrev Block.TimingOk (c : Config) (b : Block) : Prop :=
  1 ≤ b.baud ∧ b.tRef < c.tickModulus
    ∧ (c.mode = .rtu →
        2 ≤ b.t15 ∧ b.t15 < c.tickModulus ∧ 2 ≤ b.t35 ∧ b.t35 < c.tickModulus)
    ∧ (c.mode = .ascii → 2 ≤ b.t1s ∧ b.t1s < c.tickModulus)

/-- The largest transmit cursor of a phase (R49). -/
def txLimit (m : Mode) (x : St) (len : Nat) : Nat :=
  match x with
  | .txStart => 1
  | .txAddress => match m with
    | .rtu => 0
    | .ascii => 2
  | .txPdu => match m with
    | .rtu => len
    | .ascii => 2 * len
  | .txChecksum | .txEnd => 2
  | .txDrain => match m with
    | .rtu => 2
    | .ascii => 0
  | .exception | .dump | .idle | .receive | .rxAddrHi | .rxAddrLo | .rxDataHi | .rxDataLo | .rxLf
  | .frameReady | .queue | .collision | .txGuard => 0

/-- While transmitting, the frame fits (R204) and the cursor stays in its phase (R49). -/
abbrev Block.TransmitOk (c : Config) (b : Block) : Prop :=
  b.st.txActive = true → b.len < c.bufferMax ∧ b.txPos ≤ txLimit c.mode b.st b.len

/-- The driver is on in the transmit states, off elsewhere, and held where a fatal error left it
(R50, R400, R459). -/
abbrev Block.DriverOk (b : Block) : Prop :=
  (b.st.txActive = true → b.txen = true)
    ∧ (b.st.txActive = false → b.st ≠ .exception → b.txen = false)

/-- The pair last reported is the present one, or none was ever reported (R51, R220). -/
abbrev Block.StatusOk (c : Config) (b : Block) : Prop :=
  b.stat = if c.diag then b.st.statusPair else (false, false)

/-- `S.in_poll` is true only while a POLL executes (R52). -/
abbrev State.PollOk (s : State) : Prop := s.blk.inPoll = true → s.polling = true

/-- The invariant of the machine. -/
abbrev State.Inv (s : State) : Prop :=
  Config.valid s.cfg = true ∧ s.blk.st.inMode s.cfg.mode = true ∧ s.blk.BufferOk s.cfg
    ∧ s.blk.TimingOk s.cfg ∧ s.blk.TransmitOk s.cfg ∧ s.blk.DriverOk ∧ s.blk.StatusOk s.cfg
    ∧ s.PollOk

/-! ### The accumulators -/

/-- In RECEIVE every byte received is stored and `S.crc` is the CRC of the address and those bytes
(R162, R254, R256). -/
abbrev State.CrcOk (s : State) : Prop :=
  s.blk.st = .receive →
    Memory.written s.blk.buf s.blk.rxN = true
      ∧ s.blk.crc = crcUpdate 0xFFFF#16 (s.blk.faddr :: s.cells 0 s.blk.rxN)

/-- In a character reception state `S.lrc` is the sum of the decoded bytes (R167, R304, R306, R310). -/
abbrev State.LrcOk (s : State) : Prop :=
  ((s.blk.st = .rxAddrHi ∨ s.blk.st = .rxAddrLo) → s.blk.lrc = 0#8 ∧ s.blk.rxN = 0)
    ∧ ((s.blk.st = .rxDataHi ∨ s.blk.st = .rxDataLo ∨ s.blk.st = .rxLf) →
        Memory.written s.blk.buf s.blk.rxN = true
          ∧ s.blk.lrc = lrcUpdate 0#8 (s.blk.faddr :: s.cells 0 s.blk.rxN))

/-! ### Transmissions -/

/-- The bytes of a binary frame (R110). -/
def rtuBytes (address : Byte) (pdu : List Byte) : List Byte :=
  address :: (pdu ++ crcBytes (crc16 (address :: pdu)))

/-- The characters of a character frame (R111). -/
def asciiBytes (address : Byte) (pdu : List Byte) : List Byte :=
  0x3A#8 :: (hex2 address ++ hexAll pdu ++ hex2 (lrc (address :: pdu)) ++ [0x0D#8, 0x0A#8])

/-- What a binary transmission still has to write: the rest of the phase, then the phases after it. -/
def rtuRemaining (s : State) : List Byte :=
  match s.blk.st with
  | .txAddress =>
    s.blk.faddr :: (s.pdu ++ crcBytes (crcUpdate s.blk.crc (s.blk.faddr :: s.pdu)))
  | .txPdu =>
    s.pdu.drop s.blk.txPos ++ crcBytes (crcUpdate s.blk.crc (s.pdu.drop s.blk.txPos))
  | .txChecksum => (crcBytes s.blk.crc).drop s.blk.txPos
  | .exception | .dump | .idle | .receive | .rxAddrHi | .rxAddrLo | .rxDataHi | .rxDataLo | .rxLf
  | .frameReady | .queue | .collision | .txStart | .txEnd | .txDrain | .txGuard => []

/-- What a character transmission still has to write. -/
def asciiRemaining (s : State) : List Byte :=
  match s.blk.st with
  | .txStart =>
    [0x3A#8].drop s.blk.txPos ++ hex2 s.blk.faddr ++ hexAll s.pdu
      ++ hex2 (negate8 (lrcUpdate s.blk.lrc (s.blk.faddr :: s.pdu))) ++ [0x0D#8, 0x0A#8]
  | .txAddress =>
    (hex2 s.blk.faddr).drop s.blk.txPos ++ hexAll s.pdu
      ++ hex2 (negate8 (lrcUpdate s.blk.lrc (s.blk.faddr :: s.pdu))) ++ [0x0D#8, 0x0A#8]
  | .txPdu =>
    (hexAll s.pdu).drop s.blk.txPos
      ++ hex2 (negate8 (lrcUpdate s.blk.lrc (s.pdu.drop (s.blk.txPos / 2)))) ++ [0x0D#8, 0x0A#8]
  | .txChecksum => (hex2 (negate8 s.blk.lrc)).drop s.blk.txPos ++ [0x0D#8, 0x0A#8]
  | .txEnd => [0x0D#8, 0x0A#8].drop s.blk.txPos
  | .exception | .dump | .idle | .receive | .rxAddrHi | .rxAddrLo | .rxDataHi | .rxDataLo | .rxLf
  | .frameReady | .queue | .collision | .txDrain | .txGuard => []

/-- `n` micro-steps, one after the other (the loop of R201, across as many POLLs as it takes). -/
def microSteps : Nat → State → State
  | 0, s => s
  | n + 1, s => microSteps n (microStep s).2

/-- `n` steps of the machine, one after the other. -/
def runSteps : Nat → State → State
  | 0, s => s
  | n + 1, s => runSteps n (stateOf s (step s))

/-- `s` with the refusal mark and nothing else changed (R15, R141, R224). -/
def State.markRefused (s : State) : State := s.setBlk { s.blk with refused := true }

/-- The clock sample of the next micro-step (R201). -/
def State.now (s : State) : Nat := (ticks s).1

/-- `s` after the clock sample of a micro-step. -/
def State.sampled (s : State) : State := (ticks s).2

/-- `s` after a micro-step's clock sample and a `Read(1)` answered `[c]`. -/
def State.took (s : State) (c : Byte) : State := s.sampled.logCall (.read 1 (.bytes [c]))

/-- No external frame-ready callback is connected: claims about micro-steps that could call one with
any commands at all say so. -/
abbrev State.NoCallback (s : State) : Prop := s.env.callback = []

end Sys2Proof.Machine
end

