-- ==== Sys2Proof/Certificates/Slice0/Obligations.lean ====
section
/-! DEFINITION. The statements for the provers. Each docstring names the rules of spec/ it formalises;
what rests on the model's own choice names its log entry. -/

section

open Sys2Proof Sys2Proof.Machine

/-! ### Encodings -/

/-- Command words of R140, written from its table, decode to the command the table names. -/
def Obligations.CommandWordsDecode : Prop :=
  decodeCommand [0x00#8] = .ok .reset
    ∧ decodeCommand [0x06#8, 0x11#8] = .ok (.setStationAddress 0x11#8)
    ∧ decodeCommand [0x0B#8, 0x01#8, 0x05#8, 0x7E#8] = .ok (.bufferWrite 0x0105#16 0x7E#8)
    ∧ decodeCommand [0x0F#8, 0x00#8, 0x00#8, 0x25#8, 0x80#8] = .ok (.setup 9600#32)
    ∧ decodeCommand [0x10#8, 0x81#8, 0x3E#8, 0x00#8, 0x01#8, 0x07#8]
        = .ok (.crc16Update 0x813E#16 [0x07#8])
    ∧ decodeCommand [0x12#8, 0xFF#8, 0x00#8, 0x01#8, 0x01#8] = .ok (.lrcUpdate 0xFF#8 [0x01#8])
    ∧ decodeCommand [0x14#8] = .ok .dispatch
    ∧ decodeCommand [0x15#8] = .ok (.reservedCommand 0x15#8)
    ∧ decodeRequest [0x03#8, 0x00#8, 0x6B#8, 0x00#8, 0x03#8]
        = .ok (.readHoldingRegisters [0x00#8, 0x6B#8, 0x00#8, 0x03#8])
    ∧ decodeRequest [0x07#8] = .ok (.illegalFunction 0x07#8 [])
    ∧ decodeResponse [0x83#8, 0x01#8] = .ok (.exceptionResponse 0x83#8 0x01#8)
    ∧ decodeRtuFrame [0x02#8, 0x07#8, 0x41#8, 0x12#8]
        = .ok (.rtuFrame 0x02#8 [0x07#8] 0x41#8 0x12#8)
    ∧ decodeAsciiFrame
        [0x3A#8, 0x31#8, 0x31#8, 0x30#8, 0x33#8, 0x30#8, 0x30#8, 0x36#8, 0x42#8, 0x30#8, 0x30#8,
          0x30#8, 0x33#8, 0x37#8, 0x45#8, 0x0D#8, 0x0A#8]
        = .ok (.asciiFrame 0x11#8 [0x03#8, 0x00#8, 0x6B#8, 0x00#8, 0x03#8] 0x7E#8)

/-- Decoding the encoding of a well-formed instruction, in its own space, gives it back: every row of
the tables of 30_encoding.md, with every operand. -/
def Obligations.DecodeEncode : Prop :=
  ∀ i : Instr, i.wellFormed = true → decode i.space (encode i) = .ok i

/-- What a decoder accepts is the encoding of what it answers, in every space but that of character
frames, whose input may use lowercase digits (R111); a decoded command is well-formed. -/
def Obligations.EncodeDecode : Prop :=
  ∀ (sp : Space) (bytes : List Byte) (i : Instr), sp ≠ .asciiFrame → decode sp bytes = .ok i →
    encode i = bytes ∧ i.space = sp ∧ (sp = .command → i.wellFormed = true)

/-- R141: a reserved command byte, a word with too few argument bytes and an argument out of range
change `S.refused` and nothing else, and every byte string is one command or is refused. -/
def Obligations.RefusedCommandWords : Prop :=
  ∀ s : State,
    (∀ c : Byte, 0x15 ≤ c.toNat →
        decodeCommand [c] = .ok (.reservedCommand c)
          ∧ exec (.reservedCommand c) s = .next s.markRefused)
    ∧ (∀ (i : Instr) (k : Nat), i.space = .command → i.wellFormed = true → k < (encode i).length →
        ∃ e, decodeCommand ((encode i).take k) = .error e)
    ∧ (∀ i : U16, s.cfg.bufferMax ≤ i.toNat → exec (.bufferRead i) s = .next s.markRefused)
    ∧ (∀ (i : U16) (v : Byte), s.cfg.bufferMax ≤ i.toNat →
        exec (.bufferWrite i v) s = .next s.markRefused)
    ∧ (∀ n : U16, s.cfg.bufferMax < n.toNat → exec (.setBufferLen n) s = .next s.markRefused)
    ∧ exec (.setup 0#32) s = .next s.markRefused
    ∧ (∀ (bytes : List Byte) (rest : List Input), s.polling = false →
        s.env.inputs = .word bytes :: rest →
        (∃ i, decodeCommand bytes = .ok i ∧ encode i = bytes)
          ∨ step s = .next (s.setEnv { s.env with inputs := rest }).markRefused)

/-- A step decodes and executes the command word that is next among the inputs, takes a POLL under way
further, and does nothing with no input (log 2, 13). -/
def Obligations.StepRunsDecodedCommand : Prop :=
  ∀ s : State,
    (∀ (bytes : List Byte) (rest : List Input) (i : Instr), s.polling = false →
        s.env.inputs = .word bytes :: rest → decodeCommand bytes = .ok i →
        step s = exec i (s.setEnv { s.env with inputs := rest }))
    ∧ (s.polling = true → step s = .next (runPoll s))
    ∧ (s.polling = false → s.env.inputs = [] → step s = .next s)

/-- The stimuli of R145, WAIT of R146 and the configuration of R440 change the agents and nothing of the
block, and the primitives answer from the agents as R147, R89 and R90 say: bytes in order and removed, ERR
once, everything offered accepted, the WriteComplete setting, the AT value (log 2, 4). With nothing
queued, a stream that never pauses answers its next item (R222; log 31). -/
def Obligations.StimuliChangeTheAgents : Prop :=
  (∀ (s : State) (rest : List Input), s.polling = false →
    (∀ t : Nat, s.env.inputs = .setTicks t :: rest →
        step s = .next (s.setEnv { s.env with inputs := rest, now := t % 2 ^ s.cfg.tickBits }))
    ∧ (∀ d : Nat, s.env.inputs = .wait d :: rest →
        step s = .next (s.setEnv
          { s.env with inputs := rest, now := (s.env.now + d) % 2 ^ s.cfg.tickBits }))
    ∧ (∀ bs : List Byte, s.env.inputs = .rx bs :: rest →
        step s = .next (s.setEnv
          { s.env with inputs := rest, rxQueue := s.env.rxQueue ++ bs }))
    ∧ (s.env.inputs = .rxErr :: rest →
        step s = .next (s.setEnv { s.env with inputs := rest, rxErr := true }))
    ∧ (s.env.inputs = .wrErr :: rest →
        step s = .next (s.setEnv { s.env with inputs := rest, wrErr := true }))
    ∧ (s.env.inputs = .txBusy :: rest →
        step s = .next (s.setEnv { s.env with inputs := rest, txDone := false }))
    ∧ (s.env.inputs = .txDone :: rest →
        step s = .next (s.setEnv { s.env with inputs := rest, txDone := true }))
    ∧ (∀ start, s.env.inputs = .rxEndless start :: rest →
        step s = .next (s.setEnv { s.env with inputs := rest, rxEndless := start }))
    ∧ (∀ c, s.env.inputs = .configure c :: rest →
        step s = .next { s.setEnv { s.env with inputs := rest } with resetCfg := c }))
  ∧ ∀ s : State,
    (s.env.rxScript = [] → s.env.rxErr = true →
        let t := s.setEnv { s.env with rxErr := false }
        read1 s = (.err, t.logCall (.read 1 .err))
        ∧ Machine.discard s = (.err, t.logCall (.discard s.cfg.bufferMax .err)))
    ∧ (∀ b bs, s.env.rxScript = [] → s.env.rxErr = false → s.env.rxQueue = b :: bs →
        read1 s = (.byte b, (s.setEnv { s.env with rxQueue := bs }).logCall (.read 1 (.bytes [b])))
        ∧ Machine.discard s
          = (.count (min s.cfg.bufferMax (b :: bs).length),
            (s.setEnv { s.env with rxQueue := (b :: bs).drop s.cfg.bufferMax }).logCall
              (.discard s.cfg.bufferMax (.bytes ((b :: bs).take s.cfg.bufferMax)))))
    ∧ (s.env.rxScript = [] → s.env.rxErr = false → s.env.rxQueue = [] → s.env.rxEndless = none →
        read1 s = (.nothing, s.logCall (.read 1 (.bytes [])))
        ∧ Machine.discard s = (.count 0, s.logCall (.discard s.cfg.bufferMax (.bytes []))))
    ∧ (∀ k, s.env.rxScript = [] → s.env.rxErr = false → s.env.rxQueue = [] →
        s.env.rxEndless = some k →
        let t := s.setEnv { s.env with rxEndless := some (k + 1) }
        (Config.endlessItem k = none →
            read1 s = (.err, t.logCall (.read 1 .err))
            ∧ Machine.discard s = (.err, t.logCall (.discard s.cfg.bufferMax .err)))
        ∧ (∀ b, Config.endlessItem k = some b →
            read1 s = (.byte b, t.logCall (.read 1 (.bytes [b])))
            ∧ (0 < s.cfg.bufferMax →
                Machine.discard s = (.count 1, t.logCall (.discard s.cfg.bufferMax (.bytes [b]))))))
    ∧ (∀ seq, s.env.wrScript = [] →
        (s.env.wrErr = true →
            write seq s = (.err, (s.setEnv { s.env with wrErr := false }).logCall (.write seq .err)))
        ∧ (s.env.wrErr = false →
            write seq s = (.accepted seq.length, s.logCall (.write seq (.accepted seq.length)))))
    ∧ (s.env.doneScript = [] →
        writeComplete s = (s.env.txDone, s.logCall (.writeComplete s.env.txDone)))
    ∧ (s.env.tickScript = [] → s.env.now < 2 ^ s.cfg.tickBits →
        ticks s = (s.env.now, s.logCall (.ticks s.env.now)))

/-! ### Checksums, hex digits, ticks -/

/-- R163, and its converse: the two bytes that bring the CRC of `s` to 0 are exactly its CRC, low byte
first. -/
def Obligations.CrcAppend : Prop :=
  ∀ (s : List Byte) (lo hi : Byte),
    crcUpdate 0xFFFF#16 (s ++ [lo, hi]) = 0#16 ↔ lo = loByte (crc16 s) ∧ hi = hiByte (crc16 s)

/-- R167's law, and its converse: the byte that brings the sum of `s` to 0 is exactly `lrc(s)`. -/
def Obligations.LrcAppend : Prop :=
  ∀ (s : List Byte) (l : Byte), lrcUpdate 0#8 (s ++ [l]) = 0#8 ↔ l = lrc s

/-- R178: both accumulators give the same value whatever the chunks. -/
def Obligations.Chunking : Prop :=
  (∀ (c : U16) (s t : List Byte), crcUpdate c (s ++ t) = crcUpdate (crcUpdate c s) t)
    ∧ (∀ (a : Byte) (s t : List Byte), lrcUpdate a (s ++ t) = lrcUpdate (lrcUpdate a s) t)

/-- R160, R161, R174 and R175: CRC16_UPDATE and CRC16 return the accumulator after 8 single-bit right
shifts per byte, polynomial 0xA001. R165, R166, R176 and R177: LRC_UPDATE returns the sum modulo 256, LRC
its negation. Nothing else changes. -/
def Obligations.ChecksumCommands : Prop :=
  ∀ (bytes : List Byte) (s : State),
    (∀ acc : U16, exec (.crc16Update acc bytes) s
        = .next (s.setResult (.u16 (bytes.foldl
            (fun c b => (List.range 8).foldl
              (fun c _ => if c.getLsbD 0 then (c >>> 1) ^^^ 0xA001#16 else c >>> 1)
              (c ^^^ b.setWidth 16)) acc))))
    ∧ exec (.crc16 bytes) s
        = .next (s.setResult (.u16 (bytes.foldl
            (fun c b => (List.range 8).foldl
              (fun c _ => if c.getLsbD 0 then (c >>> 1) ^^^ 0xA001#16 else c >>> 1)
              (c ^^^ b.setWidth 16)) 0xFFFF#16)))
    ∧ (∀ acc : Byte, exec (.lrcUpdate acc bytes) s
        = .next (s.setResult
            (.u8 (BitVec.ofNat 8 ((acc.toNat + (bytes.map BitVec.toNat).sum) % 256)))))
    ∧ exec (.lrc bytes) s
        = .next (s.setResult
            (.u8 (BitVec.ofNat 8 ((256 - (bytes.map BitVec.toNat).sum % 256) % 256))))

/-- R168 and R169: the value of a hex digit in both cases, no other byte has one; `hexchar` is uppercase
and `hexval` recovers its nibble; `hex2` is the digit of bits 7..4, then that of bits 3..0. -/
def Obligations.HexCodec : Prop :=
  (∀ n : BitVec 4, hexval (hexchar n) = some n
      ∧ (hexchar n).toNat = if n.toNat < 10 then 0x30 + n.toNat else 0x37 + n.toNat)
    ∧ (∀ b : Byte, hex2 b
        = [hexchar (BitVec.ofNat 4 (b.toNat / 16)), hexchar (BitVec.ofNat 4 (b.toNat % 16))])
    ∧ (∀ c : Byte, 0x30 ≤ c.toNat → c.toNat ≤ 0x39 →
        (hexval c).map BitVec.toNat = some (c.toNat - 0x30))
    ∧ (∀ c : Byte, 0x41 ≤ c.toNat → c.toNat ≤ 0x46 →
        (hexval c).map BitVec.toNat = some (c.toNat - 0x37))
    ∧ (∀ c : Byte, 0x61 ≤ c.toNat → c.toNat ≤ 0x66 →
        (hexval c).map BitVec.toNat = some (c.toNat - 0x57))
    ∧ (∀ c : Byte, (c.toNat < 0x30 ∨ (0x39 < c.toNat ∧ c.toNat < 0x41)
        ∨ (0x46 < c.toNat ∧ c.toNat < 0x61) ∨ 0x66 < c.toNat) → hexval c = none)

/-- R164: elapsed time is the difference modulo `2^W`. -/
def Obligations.ElapsedIsModular : Prop :=
  ∀ (c : Config) (start now : Nat), start < 2 ^ c.tickBits → now < 2 ^ c.tickBits →
    (elapsed c start now : Int) = ((now : Int) - (start : Int)) % (2 ^ c.tickBits : Nat)
      ∧ elapsed c start start = 0 ∧ (1 ≤ c.tickBits → elapsed c (2 ^ c.tickBits - 1) 0 = 1)

/-! ### Reset -/

/-- R440, R34, R55: RESET of a configuration that R10 and R11 admit, in every state, writes every field
and makes one `Ticks()` call; one that violates R11 is refused. The thresholds of the other mode are
left open here (log 21). -/
def Obligations.ResetConstructs : Prop :=
  ∀ s : State,
    (Config.valid s.resetCfg = true →
      ∃ t15 t35 t1s : Nat,
        (s.resetCfg.mode = .rtu → t15 = deriveT15 s.resetCfg s.resetCfg.initBaud
          ∧ t35 = deriveT35 s.resetCfg s.resetCfg.initBaud)
        ∧ (s.resetCfg.mode = .ascii → t1s = deriveT1s s.resetCfg)
        ∧ exec .reset s = .next ((State.sampled { s with cfg := s.resetCfg }).setBlk
          { st := if s.resetCfg.mode = .rtu then .dump else .idle
            station := 0#8
            faddr := 0#8
            len := 0
            baud := s.resetCfg.initBaud
            t15 := t15
            t35 := t35
            t1s := t1s
            buf := []
            crc := 0xFFFF#16
            lrc := 0#8
            tRef := State.now { s with cfg := s.resetCfg }
            rxN := 0
            gap := false
            nib := 0#4
            txPos := 0
            txen := false
            stat := (false, false)
            inPoll := false
            refused := false }))
    ∧ (constantsFit s.resetCfg s.resetCfg.initBaud = false → exec .reset s = .next s.markRefused)

/-- The state after reset has the invariants, and is what RESET of the vector configuration leaves in RTU
mode at tick 0 (log 3; the thresholds of the other mode aside, log 21). -/
def Obligations.ResetState : Prop :=
  (State.reset.Inv ∧ State.reset.CrcOk ∧ State.reset.LrcOk ∧ State.reset.Safe)
    ∧ ∀ s : State, s.resetCfg = Config.vector .rtu → s.env.tickScript = [] → s.env.now = 0 →
      ∃ t, exec .reset s = .next t ∧ t.cfg = State.reset.cfg
        ∧ t.blk = { State.reset.blk with t1s := s.blk.t1s }

/-! ### The frame engine's commands -/

/-- R208, R210 and R217: STATION_ADDRESS, FRAME_READY and BUFFER_MAX, in every state, and after BEGIN_SEND
succeeds FRAME_READY answers false; SET_STATION_ADDRESS writes the station address alone (R209). -/
def Obligations.StationFrameReadyAndBufferMax : Prop :=
  ∀ s : State,
    exec .stationAddress s = .next (s.setResult (.u8 s.blk.station))
    ∧ (∀ a : Byte, exec (.setStationAddress a) s = .next (s.setBlk { s.blk with station := a }))
    ∧ exec .frameReady s = .next (s.setResult (.bool (decide (s.blk.st = .frameReady))))
    ∧ exec .bufferMax s = .next (s.setResult (.u16 (BitVec.ofNat 16 s.cfg.bufferMax)))
    ∧ (∀ t, exec .beginSend s = .next t → t.result = .bool true →
        exec .frameReady t = .next (t.setResult (.bool false)))

/-- R211, R213 and R215: the accessors in FRAME_READY, QUEUE and COLLISION; elsewhere, and for a cell
never written, some value in range (log 9); an index at or above `BUFFER_MAX` is refused. No field of
the block is written. -/
def Obligations.AccessorsAnswer : Prop :=
  ∀ s : State,
    ((s.blk.st = .frameReady ∨ s.blk.st = .queue ∨ s.blk.st = .collision) →
        exec .frameAddress s = .next (s.setResult (.u8 s.blk.faddr))
        ∧ exec .bufferLen s = .next (s.setResult (.u16 (BitVec.ofNat 16 s.blk.len)))
        ∧ (∀ (i : U16) (v : Byte), i.toNat < s.cfg.bufferMax →
            Memory.read s.blk.buf i.toNat = some v →
            exec (.bufferRead i) s = .next (s.setResult (.u8 v)).draw))
    ∧ (s.blk.st ≠ .frameReady → s.blk.st ≠ .queue → s.blk.st ≠ .collision →
        (∃ v, exec .frameAddress s = .next (s.setResult (.u8 v)).draw)
        ∧ (∃ n, n ≤ s.cfg.bufferMax
          ∧ exec .bufferLen s = .next (s.setResult (.u16 (BitVec.ofNat 16 n))).draw))
    ∧ (∀ i : U16, i.toNat < s.cfg.bufferMax →
        ∃ v, exec (.bufferRead i) s = .next (s.setResult (.u8 v)).draw)
    ∧ (∀ i : U16, s.cfg.bufferMax ≤ i.toNat → exec (.bufferRead i) s = .next s.markRefused)

/-- R212, R214 and R216: SET_FRAME_ADDRESS, BUFFER_WRITE and SET_BUFFER_LEN in QUEUE and COLLISION;
refused elsewhere, and with an index or a length out of range. Every buffer cell but the one written
reads as before. -/
def Obligations.ComposingCommands : Prop :=
  ∀ s : State,
    ((s.blk.st = .queue ∨ s.blk.st = .collision) →
        (∀ a : Byte, exec (.setFrameAddress a) s = .next (s.setBlk { s.blk with faddr := a }))
        ∧ (∀ n : U16, n.toNat ≤ s.cfg.bufferMax →
            exec (.setBufferLen n) s = .next (s.setBlk { s.blk with len := n.toNat }))
        ∧ (∀ (i : U16) (v : Byte), i.toNat < s.cfg.bufferMax →
            ∃ buf, exec (.bufferWrite i v) s = .next (s.setBlk { s.blk with buf := buf })
              ∧ Memory.read buf i.toNat = some v
              ∧ ∀ j, j ≠ i.toNat → Memory.read buf j = Memory.read s.blk.buf j))
    ∧ (s.blk.st ≠ .queue → s.blk.st ≠ .collision →
        (∀ a : Byte, exec (.setFrameAddress a) s = .next s.markRefused)
        ∧ (∀ n : U16, exec (.setBufferLen n) s = .next s.markRefused)
        ∧ (∀ (i : U16) (v : Byte), exec (.bufferWrite i v) s = .next s.markRefused))
    ∧ (∀ n : U16, s.cfg.bufferMax < n.toNat → exec (.setBufferLen n) s = .next s.markRefused)
    ∧ (∀ (i : U16) (v : Byte), s.cfg.bufferMax ≤ i.toNat →
        exec (.bufferWrite i v) s = .next s.markRefused)

/-- R203: BEGIN_SEND. Its status notification is R220. -/
def Obligations.BeginSendAcquires : Prop :=
  ∀ s : State,
    ((s.blk.st = .idle ∨ s.blk.st = .frameReady) →
        exec .beginSend s
          = .next ((statusUpdate (s.setBlk { s.blk with st := .queue })).setResult (.bool true)))
    ∧ (s.blk.st = .collision → exec .beginSend s = .next (s.setResult (.bool true)))
    ∧ (s.blk.st ≠ .idle → s.blk.st ≠ .frameReady → s.blk.st ≠ .collision →
        exec .beginSend s = .next (s.setResult (.bool false)))

/-- R204, R401: SEND, in every state and both modes. -/
def Obligations.SendStartsTransmission : Prop :=
  ∀ s : State,
    (s.blk.st = .queue → s.blk.len < s.cfg.bufferMax → s.cfg.mode = .rtu →
        exec .send s = .next (statusUpdate ((s.setBlk { s.blk with
          txPos := 0, crc := 0xFFFF#16, st := .txAddress, txen := true }).logCall (.txEnable true))))
    ∧ (s.blk.st = .queue → s.blk.len < s.cfg.bufferMax → s.cfg.mode = .ascii →
        exec .send s = .next (statusUpdate ((s.setBlk { s.blk with
          txPos := 0, lrc := 0#8, st := .txStart, txen := true }).logCall (.txEnable true))))
    ∧ (s.blk.st = .queue → s.cfg.bufferMax ≤ s.blk.len →
        exec .send s = .next (statusUpdate (s.setBlk { s.blk with st := .exception })))
    ∧ (s.blk.st = .collision → s.cfg.mode = .rtu →
        exec .send s
          = .next (statusUpdate (s.sampled.setBlk { s.blk with tRef := s.now, st := .dump })))
    ∧ (s.blk.st = .collision → s.cfg.mode = .ascii →
        exec .send s = .next (statusUpdate (s.setBlk { s.blk with st := .idle })))
    ∧ (s.blk.st = .exception → exec .send s = .next s)
    ∧ (s.blk.st ≠ .queue → s.blk.st ≠ .collision → s.blk.st ≠ .exception →
        exec .send s = .next s.markRefused)

/-- R205: FINISHED, in every state and both modes. -/
def Obligations.FinishedReleases : Prop :=
  ∀ s : State,
    ((s.blk.st = .frameReady ∨ s.blk.st = .queue) →
        exec .finished s = .next (statusUpdate (s.setBlk { s.blk with st := .idle })))
    ∧ (s.blk.st = .collision → s.cfg.mode = .rtu →
        exec .finished s
          = .next (statusUpdate (s.sampled.setBlk { s.blk with tRef := s.now, st := .dump })))
    ∧ (s.blk.st = .collision → s.cfg.mode = .ascii →
        exec .finished s = .next (statusUpdate (s.setBlk { s.blk with st := .idle })))
    ∧ (s.blk.st = .exception → exec .finished s = .next s)
    ∧ (s.blk.st ≠ .frameReady → s.blk.st ≠ .queue → s.blk.st ≠ .collision →
        s.blk.st ≠ .exception → exec .finished s = .next s.markRefused)

/-- R218, R170, R171, R172: SETUP, in every state. The guard is a parameter that R11 bounds too
(log 27). -/
def Obligations.SetupDerives : Prop :=
  ∀ (s : State) (baud : U32), s.cfg.asciiGuardTicks < 2 ^ s.cfg.tickBits →
    let t35 := max 2 ((if baud.toNat ≤ 19200 then 38500000 / baud.toNat else s.cfg.t35FixedUs)
      / s.cfg.usPerTick)
    let t15 := max 2 ((if baud.toNat ≤ 19200 then 16500000 / baud.toNat else s.cfg.t15FixedUs)
      / s.cfg.usPerTick)
    let t1s := max 2 (1000000 / s.cfg.usPerTick)
    (baud = 0#32 → exec (.setup baud) s = .next s.markRefused)
    ∧ (baud ≠ 0#32 → s.cfg.mode = .rtu → t35 ≤ 2 ^ s.cfg.tickBits - 1 →
        t15 ≤ 2 ^ s.cfg.tickBits - 1 →
        exec (.setup baud) s
          = .next (s.setBlk { s.blk with baud := baud.toNat, t15 := t15, t35 := t35 }))
    ∧ (baud ≠ 0#32 → s.cfg.mode = .rtu →
        (2 ^ s.cfg.tickBits - 1 < t35 ∨ 2 ^ s.cfg.tickBits - 1 < t15) →
        exec (.setup baud) s = .next s.markRefused)
    ∧ (baud ≠ 0#32 → s.cfg.mode = .ascii → t1s ≤ 2 ^ s.cfg.tickBits - 1 →
        exec (.setup baud) s = .next (s.setBlk { s.blk with baud := baud.toNat, t1s := t1s }))
    ∧ (baud ≠ 0#32 → s.cfg.mode = .ascii → 2 ^ s.cfg.tickBits - 1 < t1s →
        exec (.setup baud) s = .next s.markRefused)

/-- R220: with DIAG the notification is called, and `S.stat` written, exactly when the pair of R54 has
changed; without DIAG nothing happens. -/
def Obligations.StatusIsReportedOnChange : Prop :=
  ∀ s : State,
    let pair := (decide (s.blk.st ∈ [St.receive, .rxAddrHi, .rxAddrLo, .rxDataHi, .rxDataLo, .rxLf]),
      decide (s.blk.st ∈ [St.txStart, .txAddress, .txPdu, .txChecksum, .txEnd, .txDrain]))
    (s.cfg.diag = false → statusUpdate s = s)
    ∧ (s.cfg.diag = true → pair = s.blk.stat → statusUpdate s = s)
    ∧ (s.cfg.diag = true → pair ≠ s.blk.stat →
        statusUpdate s = (s.setBlk { s.blk with stat := pair }).setEnv
          { s.env with calls := s.env.calls ++ [.status pair.1 pair.2] })

/-! ### POLL -/

/-- R202 and R225: POLL in EXCEPTION returns 0 and makes no call; POLL during a POLL is refused, also where
the loop is under way with `S.in_poll` cleared by a callback's RESET, which is the model's choice (log 33),
since R201 tests `S.in_poll`. R201's example, R252 and R301: with nothing received, POLL in IDLE makes one
`Read(1)`, returns 0 and changes no field of the block. -/
def Obligations.PollWithoutWork : Prop :=
  ∀ s : State,
    ((s.blk.inPoll = true ∨ s.polling = true) → exec .poll s = .next s.markRefused)
    ∧ (s.blk.inPoll = false → s.polling = false → s.blk.st = .exception →
        exec .poll s = .next (s.setResult (.deadline 0)))
    ∧ (s.blk.inPoll = false → s.polling = false → s.blk.st = .idle → s.blk.StatusOk s.cfg → s.env.rxScript = [] →
        s.env.rxErr = false → s.env.rxQueue = [] → s.env.rxEndless = none →
        exec .poll s
          = .next ((s.sampled.logCall (.read 1 (.bytes []))).setResult (.deadline 0)))

/-- R201, R15, R222: a POLL, and a step that takes one further, runs micro-steps up to the first that does
not answer `continue`: if that one answers `return d`, POLL's result is `d`; if an agent's answer was
refused there, POLL ends too (log 10). Nothing else ends it, whatever the micro-steps did, a RESET by the
callback included (R457; log 33): under a stream that never pauses (log 31) it may still be under way
where the step ends, and under one that falls silent it returns. R456: in the RTU reception states every
micro-step under a stream that never pauses answers `continue`, DUMP never ends, and the POLL is still
under way after every further step. -/
def Obligations.PollRunsToTheFirstReturn : Prop :=
  (∀ (s begun : State) (outcome : Host.Outcome State Fault Refusal),
    ((s.blk.inPoll = false ∧ s.polling = false ∧ s.blk.st ≠ .exception
        ∧ begun = { s.setBlk { s.blk with inPoll := true } with polling := true }
        ∧ outcome = exec .poll s)
      ∨ (s.polling = true ∧ begun = s ∧ outcome = step s)) →
    ∃ n t, outcome = .next t
      ∧ (∀ k, k < n → (microStep (microSteps k begun)).1 = .again)
      ∧ ((∃ d u, microStep (microSteps n begun) = (.done d, u)
            ∧ t = { (u.setBlk { u.blk with inPoll := false }).setResult (.deadline d) with
                polling := false })
          ∨ (∃ u, microStep (microSteps n begun) = (.refused, u)
            ∧ t = { u.setBlk { u.blk with inPoll := false } with polling := false })
          ∨ (s.env.rxEndless ≠ none ∧ 0 < n ∧ t = microSteps n begun ∧ t.polling = true)))
  ∧ ∀ s : State, s.cfg.mode = .rtu →
    (s.blk.st = .dump ∨ s.blk.st = .idle ∨ s.blk.st = .receive) → 0 < s.cfg.bufferMax →
    s.env.rxScript = [] → s.env.rxEndless ≠ none →
    (∀ n, (microStep (microSteps n s)).1 = .again
      ∧ (s.blk.st = .dump → (microSteps n s).blk.st = .dump))
    ∧ (s.blk.inPoll = false → s.polling = false →
        ∃ t, exec .poll s = .next t ∧ ∀ n, (runSteps n t).polling = true)

/-- R206 and R207: the micro-steps of FRAME_READY, QUEUE and COLLISION, in both modes, for every
answer in range of `Discard`. -/
def Obligations.HoldingMicroSteps : Prop :=
  ∀ (s t : State) (r : DiscardResult), Machine.discard s.sampled = (r, t) →
    ((s.blk.st = .frameReady ∨ s.blk.st = .queue) →
        (r = .count 0 → microStep s = (.done 0, statusUpdate t))
        ∧ (∀ k, 0 < k → r = .count k →
            microStep s = (.again, statusUpdate (t.setBlk { s.blk with st := .collision })))
        ∧ (r = .err →
            microStep s = (.again, statusUpdate (t.setBlk { s.blk with st := .collision }))))
    ∧ (s.blk.st = .collision →
        (r = .count 0 → microStep s = (.done 0, statusUpdate t))
        ∧ (∀ k, 0 < k → r = .count k → microStep s = (.again, statusUpdate t))
        ∧ (r = .err → microStep s = (.done 0, statusUpdate t)))

/-- R91, R15: a micro-step is refused exactly when an agent answered outside its primitive's range; it
then leaves the block as it was, marked refused, and what the agents have seen stays seen (log 10). -/
def Obligations.OutOfRangeAnswersAreRefused : Prop :=
  ∀ (s t : State) (a : StepAnswer), s.blk.st.inMode s.cfg.mode = true → microStep s = (a, t) →
    (a = .refused ↔ ∃ c ∈ t.env.calls.drop s.env.calls.length,
        (∃ offered k, c = .write offered (.accepted k) ∧ offered.length < k)
        ∨ (∃ n bs, (c = .read n (.bytes bs) ∨ c = .discard n (.bytes bs)) ∧ n < bs.length))
    ∧ (a = .refused →
        t.blk = { s.blk with refused := true } ∧ t.cfg = s.cfg ∧ t.result = s.result
          ∧ t.polling = s.polling)

/-! ### The binary engine -/

/-- R251: the micro-step of DUMP. -/
def Obligations.DumpMicroStep : Prop :=
  ∀ (s t : State) (r : DiscardResult), s.cfg.mode = .rtu → s.blk.st = .dump →
    Machine.discard s.sampled = (r, t) →
    (r = .err → microStep s = (.again, statusUpdate (t.setBlk { s.blk with tRef := s.now })))
    ∧ (∀ k, 0 < k → r = .count k →
        microStep s = (.again, statusUpdate (t.setBlk { s.blk with tRef := s.now })))
    ∧ (r = .count 0 → s.blk.t35 ≤ elapsed s.cfg s.blk.tRef s.now →
        microStep s = (.again, statusUpdate (t.setBlk { s.blk with st := .idle })))
    ∧ (r = .count 0 → elapsed s.cfg s.blk.tRef s.now < s.blk.t35 →
        microStep s = (.done (s.blk.t35 - elapsed s.cfg s.blk.tRef s.now), statusUpdate t))

/-- R252 to R255, R223: the micro-step of IDLE in RTU mode. -/
def Obligations.RtuIdleMicroStep : Prop :=
  ∀ (s t : State) (r : ReadResult), s.cfg.mode = .rtu → s.blk.st = .idle →
    read1 s.sampled = (r, t) →
    (r = .nothing → microStep s = (.done 0, statusUpdate t))
    ∧ (r = .err →
        microStep s = (.again, statusUpdate (t.setBlk { s.blk with tRef := s.now, st := .dump })))
    ∧ (∀ a, r = .byte a → (s.blk.station = 0#8 ∨ a = 0#8 ∨ a = s.blk.station) →
        microStep s = (.again, statusUpdate (t.setBlk { s.blk with
          faddr := a, crc := crcByte 0xFFFF#16 a, rxN := 0, gap := false, tRef := s.now,
          st := .receive })))
    ∧ (∀ a, r = .byte a → s.blk.station ≠ 0#8 → a ≠ 0#8 → a ≠ s.blk.station →
        microStep s = (.again, statusUpdate (t.setBlk { s.blk with tRef := s.now, st := .dump })))

/-- R256 to R259: the micro-step of RECEIVE when the stream answers a byte or ERR. Every cell but the
one stored to reads as before. -/
def Obligations.ReceiveByteMicroStep : Prop :=
  ∀ (s t : State) (r : ReadResult), s.cfg.mode = .rtu → s.blk.st = .receive →
    read1 s.sampled = (r, t) →
    (∀ b, r = .byte b → s.blk.gap = false → s.blk.rxN < s.cfg.bufferMax →
        ∃ buf, microStep s = (.again, statusUpdate (t.setBlk { s.blk with
            buf := buf, rxN := s.blk.rxN + 1, crc := crcByte s.blk.crc b, tRef := s.now }))
          ∧ Memory.read buf s.blk.rxN = some b
          ∧ ∀ j, j ≠ s.blk.rxN → Memory.read buf j = Memory.read s.blk.buf j)
    ∧ (∀ b, r = .byte b → (s.blk.gap = true ∨ s.cfg.bufferMax ≤ s.blk.rxN) →
        microStep s = (.again, statusUpdate (t.setBlk { s.blk with tRef := s.now, st := .dump })))
    ∧ (r = .err →
        microStep s = (.again, statusUpdate (t.setBlk { s.blk with tRef := s.now, st := .dump })))

/-- R260 and R261: the micro-step of RECEIVE when the stream answers no byte: the deadlines, the gap, and
the end of the frame, which goes to the dispatcher where one is attached (R219; for an external callback
see FrameReadyCallback). -/
def Obligations.ReceiveSilenceMicroStep : Prop :=
  ∀ s t : State, s.cfg.mode = .rtu → s.blk.st = .receive → read1 s.sampled = (.nothing, t) →
    let e := elapsed s.cfg s.blk.tRef s.now
    let ready := t.setBlk { s.blk with len := s.blk.rxN - 2, st := .frameReady }
    (e < s.blk.t35 → s.blk.t15 ≤ e →
        microStep s = (.done (s.blk.t35 - e), statusUpdate (t.setBlk { s.blk with gap := true })))
    ∧ (e < s.blk.t35 → e < s.blk.t15 → microStep s = (.done (s.blk.t15 - e), statusUpdate t))
    ∧ (s.blk.t35 ≤ e → (s.blk.rxN < 2 ∨ s.blk.crc ≠ 0#16) →
        microStep s = (.again, statusUpdate (t.setBlk { s.blk with st := .idle })))
    ∧ (s.blk.t35 ≤ e → 2 ≤ s.blk.rxN → s.blk.crc = 0#16 →
        (s.cfg.dispatcherAttached = true →
            ∃ u, exec .dispatch ready = .next u ∧ microStep s = (.again, statusUpdate u))
        ∧ (s.cfg.dispatcherAttached = false → s.env.callback = [] →
            microStep s = (.again, statusUpdate ready)))

/-- R262 to R266, R402: the transmit micro-steps of RTU mode: an ERR of the echo discard aborts each of
them; after `k` echo bytes the phase goes on, for every answer in range of `Write` and `WriteComplete`.
The PDU bytes are read once per micro-step (log 9). -/
def Obligations.RtuTransmitPhases : Prop :=
  ∀ s t : State, s.cfg.mode = .rtu →
    ((s.blk.st = .txAddress ∨ s.blk.st = .txPdu ∨ s.blk.st = .txChecksum ∨ s.blk.st = .txDrain) →
        Machine.discard s.sampled = (.err, t) →
        microStep s = (.again, statusUpdate ((t.logCall (.txEnable false)).setBlk
          { s.blk with txen := false, tRef := s.now, st := .dump })))
    ∧ ∀ k, Machine.discard s.sampled = (.count k, t) →
    let nothingDone : StepAnswer := if 0 < k then .again else .done 0
    (s.blk.st = .txAddress → ∀ w u, write [s.blk.faddr] t = (w, u) →
        (w = .err → microStep s = (.done 0, statusUpdate (u.setBlk { s.blk with st := .exception })))
        ∧ (w = .accepted 0 → microStep s = (nothingDone, statusUpdate u))
        ∧ (∀ n, 0 < n → w = .accepted n →
            microStep s = (.again, statusUpdate (u.setBlk { s.blk with
              crc := crcByte s.blk.crc s.blk.faddr, txPos := 0, st := .txPdu }))))
    ∧ (s.blk.st = .txPdu → s.blk.txPos = s.blk.len →
        microStep s = (.again, statusUpdate (t.setBlk { s.blk with txPos := 0, st := .txChecksum })))
    ∧ (s.blk.st = .txPdu → s.blk.txPos ≠ s.blk.len →
        ∀ w u, write (s.cells s.blk.txPos s.blk.len) t.draw = (w, u) →
        (w = .err → microStep s = (.done 0, statusUpdate (u.setBlk { s.blk with st := .exception })))
        ∧ (w = .accepted 0 → microStep s = (nothingDone, statusUpdate u))
        ∧ (∀ n, 0 < n → w = .accepted n →
            microStep s = (.again, statusUpdate (u.setBlk { s.blk with
              crc := crcUpdate s.blk.crc ((s.cells s.blk.txPos s.blk.len).take n),
              txPos := s.blk.txPos + n }))))
    ∧ (s.blk.st = .txChecksum → s.blk.txPos = 2 →
        microStep s = (.again, statusUpdate (t.setBlk { s.blk with st := .txDrain })))
    ∧ (s.blk.st = .txChecksum → s.blk.txPos ≠ 2 →
        ∀ w u, write ([loByte s.blk.crc, hiByte s.blk.crc].drop s.blk.txPos) t = (w, u) →
        (w = .err → microStep s = (.done 0, statusUpdate (u.setBlk { s.blk with st := .exception })))
        ∧ (w = .accepted 0 → microStep s = (nothingDone, statusUpdate u))
        ∧ (∀ n, 0 < n → w = .accepted n →
            microStep s = (.again, statusUpdate (u.setBlk { s.blk with
              txPos := s.blk.txPos + n }))))
    ∧ (s.blk.st = .txDrain → ∀ u, writeComplete t = (true, u) →
        microStep s = (.again, statusUpdate ((u.logCall (.txEnable false)).setBlk
          { s.blk with txen := false, tRef := s.now, st := .dump })))
    ∧ (s.blk.st = .txDrain → ∀ u, writeComplete t = (false, u) →
        microStep s = (nothingDone, statusUpdate u))

/-- R267: from SEND on, for as long as the transmission goes on and nothing is refused, what is on the
wire and what is left to write together are the frame of R110, whatever `Write` accepted; in TX_DRAIN
nothing is left. Every cell of the PDU has been written (U4). -/
def Obligations.RtuTransmissionBytes : Prop :=
  ∀ (s t : State) (n : Nat), s.cfg.mode = .rtu → s.blk.st = .queue → s.blk.len < s.cfg.bufferMax →
    s.Safe → Memory.written s.blk.buf s.blk.len = true → exec .send s = .next t →
    (∀ k, k ≤ n → (microSteps k t).blk.st.txActive = true) → (microSteps n t).Safe →
    (microSteps n t).env.wire ++ rtuRemaining (microSteps n t)
        = s.env.wire ++ rtuBytes s.blk.faddr s.pdu
      ∧ ((microSteps n t).blk.st = .txDrain →
          (microSteps n t).env.wire = s.env.wire ++ rtuBytes s.blk.faddr s.pdu)

/-- R110, R114, R162, R254 to R261, seen whole: the RTU_FRAME row received in IDLE (log 17). From an
accepted address and with its own CRC the frame is ready, its PDU in the buffer; with any other CRC it is
discarded to IDLE; so are a frame for another station and one that overflows the buffer. Every cell
outside the bytes stored reads as before. That the row is read ahead of bytes already queued and of
prescribed draws is the model's choice (log 34). Every other state, an attached dispatcher and a callback:
ArrivalsAreMicroSteps. -/
def Obligations.BinaryFrameReceived : Prop :=
  ∀ (s : State) (a : Byte) (pdu : List Byte) (lo hi : Byte), s.Inv → s.cfg.mode = .rtu →
    s.blk.st = .idle → s.cfg.dispatcherAttached = false → s.NoCallback →
    let accepted := s.blk.station = 0#8 ∨ a = 0#8 ∨ a = s.blk.station
    ∃ t, exec (.rtuFrame a pdu lo hi) s = .next t
      ∧ t.blk = { s.blk with
          st := t.blk.st, faddr := t.blk.faddr, len := t.blk.len, buf := t.blk.buf,
          crc := t.blk.crc, tRef := t.blk.tRef, rxN := t.blk.rxN, gap := t.blk.gap }
      ∧ t.cfg = s.cfg ∧ t.resetCfg = s.resetCfg ∧ t.result = s.result ∧ t.draws = s.draws
      ∧ t.polling = s.polling
      ∧ (accepted → pdu.length + 2 ≤ s.cfg.bufferMax →
          t.blk.faddr = a
          ∧ (lo = loByte (crc16 (a :: pdu)) → hi = hiByte (crc16 (a :: pdu)) →
              t.blk.st = .frameReady ∧ t.blk.len = pdu.length)
          ∧ ((lo ≠ loByte (crc16 (a :: pdu)) ∨ hi ≠ hiByte (crc16 (a :: pdu))) →
              t.blk.st = .idle ∧ t.blk.len = s.blk.len)
          ∧ (∀ j, j < pdu.length → Memory.read t.blk.buf j = pdu[j]?)
          ∧ (∀ j, pdu.length + 2 ≤ j → Memory.read t.blk.buf j = Memory.read s.blk.buf j))
      ∧ (accepted → s.cfg.bufferMax < pdu.length + 2 →
          t.blk.st = .idle ∧ t.blk.faddr = a ∧ t.blk.len = s.blk.len)
      ∧ (¬ accepted → t.blk = { s.blk with tRef := t.blk.tRef })

/-! ### The character engine -/

/-- An ASCII symbol row is one micro-step whose `Read` or `Discard` is answered with its character
(log 16); a frame row is the rows of its bytes, one after the other, and RTU_FRAME is then the silence of
R114 where RECEIVE or DUMP waits for it: a micro-step that finds no byte, `T35` after the timing reference
(log 17). This in every state, in both modes, with any dispatcher or callback. That the character and the
silence are answered ahead of the queue and of the prescribed draws is the model's choice (log 34), and so
is that in EXCEPTION, where the bytes stay in the stream (R404), they are queued behind it. -/
def Obligations.ArrivalsAreMicroSteps : Prop :=
  (∀ (s : State) (c : Byte),
    (s.blk.st ≠ .exception →
        exec (classify c) s
          = .next (microStep (s.setEnv
              { s.env with rxScript := .bytes [c] :: s.env.rxScript })).2)
    ∧ (s.blk.st = .exception →
        exec (classify c) s = .next (s.setEnv { s.env with rxQueue := s.env.rxQueue ++ [c] })
        ∧ ∀ i : Instr, (i.space = .rtuFrame ∨ i.space = .asciiFrame) →
          exec i s = .next (s.setEnv { s.env with rxQueue := s.env.rxQueue ++ encode i })))
  ∧ ∀ (s after : State) (i : Instr),
    after = (encode i).foldl (fun u c => stateOf u (exec (classify c) u)) s →
    (i.space = .asciiFrame → exec i s = .next after)
    ∧ (i.space = .rtuFrame → after.blk.st ≠ .receive → after.blk.st ≠ .dump →
        exec i s = .next after)
    ∧ (i.space = .rtuFrame → (after.blk.st = .receive ∨ after.blk.st = .dump) →
        exec i s
          = .next (microStep (after.setEnv { after.env with
              rxScript := .bytes [] :: after.env.rxScript
              tickScript := (after.blk.tRef + after.blk.t35) :: after.env.tickScript })).2)

/-- R304: `:` starts or restarts a frame, in IDLE and in every reception state. -/
def Obligations.ColonStartsAFrame : Prop :=
  ∀ s t : State, s.cfg.mode = .ascii →
    (s.blk.st = .idle ∨ s.blk.st = .rxAddrHi ∨ s.blk.st = .rxAddrLo ∨ s.blk.st = .rxDataHi
      ∨ s.blk.st = .rxDataLo ∨ s.blk.st = .rxLf) →
    read1 s.sampled = (.byte 0x3A#8, t) →
    microStep s = (.again, statusUpdate (t.setBlk { s.blk with
      lrc := 0#8, rxN := 0, tRef := s.now, st := .rxAddrHi }))

/-- R303, R313: outside a frame every character but `:` is ignored; inside one, a character that is not
legal where it arrives aborts it. -/
def Obligations.IllegalCharactersAbort : Prop :=
  ∀ (s t : State) (c : Byte), s.cfg.mode = .ascii → c ≠ 0x3A#8 →
    read1 s.sampled = (.byte c, t) →
    (s.blk.st = .idle → microStep s = (.again, statusUpdate t))
    ∧ (((hexval c = none ∧ (s.blk.st = .rxAddrHi ∨ s.blk.st = .rxAddrLo ∨ s.blk.st = .rxDataLo))
          ∨ (hexval c = none ∧ c ≠ 0x0D#8 ∧ s.blk.st = .rxDataHi)
          ∨ (c ≠ 0x0A#8 ∧ s.blk.st = .rxLf)) →
        microStep s = (.again, statusUpdate (t.setBlk { s.blk with tRef := s.now, st := .idle })))

/-- R305 to R308, R310, R311: a hex digit in each reception state. Every cell but the one stored to reads
as before. -/
def Obligations.HexDigitsAreDecoded : Prop :=
  ∀ (s t : State) (c : Byte) (h : BitVec 4), s.cfg.mode = .ascii → hexval c = some h →
    read1 s.sampled = (.byte c, t) →
    let value : Byte := BitVec.ofNat 8 (16 * s.blk.nib.toNat + h.toNat)
    let aborted := t.setBlk { s.blk with tRef := s.now, st := .idle }
    (s.blk.st = .rxAddrHi →
        microStep s = (.again, statusUpdate (t.setBlk
          { s.blk with nib := h, tRef := s.now, st := .rxAddrLo })))
    ∧ (s.blk.st = .rxAddrLo →
        (s.blk.station = 0#8 ∨ value = 0#8 ∨ value = s.blk.station) →
        microStep s = (.again, statusUpdate (t.setBlk { s.blk with
          faddr := value, lrc := s.blk.lrc + value, tRef := s.now, st := .rxDataHi })))
    ∧ (s.blk.st = .rxAddrLo → s.blk.station ≠ 0#8 → value ≠ 0#8 → value ≠ s.blk.station →
        microStep s = (.again, statusUpdate aborted))
    ∧ (s.blk.st = .rxDataHi →
        microStep s = (.again, statusUpdate (t.setBlk
          { s.blk with nib := h, tRef := s.now, st := .rxDataLo })))
    ∧ (s.blk.st = .rxDataLo → s.blk.rxN < s.cfg.bufferMax →
        ∃ buf, microStep s = (.again, statusUpdate (t.setBlk { s.blk with
            buf := buf, rxN := s.blk.rxN + 1, lrc := s.blk.lrc + value, tRef := s.now,
            st := .rxDataHi }))
          ∧ Memory.read buf s.blk.rxN = some value
          ∧ ∀ j, j ≠ s.blk.rxN → Memory.read buf j = Memory.read s.blk.buf j)
    ∧ (s.blk.st = .rxDataLo → s.cfg.bufferMax ≤ s.blk.rxN →
        microStep s = (.again, statusUpdate aborted))

/-- R309 and R312: CR where a byte could begin, and the LF that ends a frame, which goes to the dispatcher
where one is attached (R219; for an external callback see FrameReadyCallback). -/
def Obligations.CarriageReturnAndLineFeed : Prop :=
  ∀ (s t : State) (c : Byte), s.cfg.mode = .ascii → read1 s.sampled = (.byte c, t) →
    let ready := t.setBlk { s.blk with len := s.blk.rxN - 1, st := .frameReady }
    (c = 0x0D#8 → s.blk.st = .rxDataHi →
        microStep s = (.again, statusUpdate (t.setBlk { s.blk with tRef := s.now, st := .rxLf })))
    ∧ (c = 0x0A#8 → s.blk.st = .rxLf → (s.blk.rxN < 1 ∨ s.blk.lrc ≠ 0#8) →
        microStep s = (.again, statusUpdate (t.setBlk { s.blk with st := .idle })))
    ∧ (c = 0x0A#8 → s.blk.st = .rxLf → 1 ≤ s.blk.rxN → s.blk.lrc = 0#8 →
        (s.cfg.dispatcherAttached = true →
            ∃ u, exec .dispatch ready = .next u ∧ microStep s = (.again, statusUpdate u))
        ∧ (s.cfg.dispatcherAttached = false → s.env.callback = [] →
            microStep s = (.again, statusUpdate ready)))

/-- R219: an external callback is called where a valid frame ends, inside the micro-step, in both modes; the
model's callback is a list of command words, executed in order (log 14): any command but POLL, which is
refused (R225), as is a word that is no command (R141). -/
def Obligations.FrameReadyCallback : Prop :=
  (∀ (s : State) (w : List Byte) (ws : List (List Byte)),
    callbackWords [] s = s
    ∧ (∀ i, decodeCommand w = .ok i → i ≠ .poll →
        ∃ t, exec i s = .next t ∧ callbackWords (w :: ws) s = callbackWords ws t)
    ∧ (decodeCommand w = .ok .poll →
        callbackWords (w :: ws) s = callbackWords ws s.markRefused)
    ∧ (∀ e, decodeCommand w = .error e →
        callbackWords (w :: ws) s = callbackWords ws s.markRefused))
  ∧ ∀ (s t : State) (words : List (List Byte)) (rest : List (List (List Byte))),
    s.cfg.dispatcherAttached = false → s.env.callback = words :: rest →
    let called (n : Nat) := statusUpdate (callbackWords words
      (((t.setBlk { s.blk with len := n, st := .frameReady }).setEnv
        { t.env with callback := rest }).logCall .frameReady))
    (s.cfg.mode = .rtu → s.blk.st = .receive → read1 s.sampled = (.nothing, t) →
        s.blk.t35 ≤ elapsed s.cfg s.blk.tRef s.now → 2 ≤ s.blk.rxN → s.blk.crc = 0#16 →
        microStep s = (.again, called (s.blk.rxN - 2)))
    ∧ (s.cfg.mode = .ascii → s.blk.st = .rxLf → read1 s.sampled = (.byte 0x0A#8, t) →
        1 ≤ s.blk.rxN → s.blk.lrc = 0#8 →
        microStep s = (.again, called (s.blk.rxN - 1)))

/-- R301, R302, R314 and R315: an ASCII reception state or IDLE when the stream answers nothing or
ERR. -/
def Obligations.CharacterTimeout : Prop :=
  ∀ (s t : State) (r : ReadResult), s.cfg.mode = .ascii → read1 s.sampled = (r, t) →
    (s.blk.st = .idle →
        (r = .nothing → microStep s = (.done 0, statusUpdate t))
        ∧ (r = .err → microStep s = (.again, statusUpdate (t.setBlk { s.blk with tRef := s.now }))))
    ∧ ((s.blk.st = .rxAddrHi ∨ s.blk.st = .rxAddrLo ∨ s.blk.st = .rxDataHi ∨ s.blk.st = .rxDataLo
        ∨ s.blk.st = .rxLf) →
        (r = .nothing → s.blk.t1s ≤ elapsed s.cfg s.blk.tRef s.now →
            microStep s = (.again, statusUpdate (t.setBlk { s.blk with st := .idle })))
        ∧ (r = .nothing → elapsed s.cfg s.blk.tRef s.now < s.blk.t1s →
            microStep s = (.done (s.blk.t1s - elapsed s.cfg s.blk.tRef s.now), statusUpdate t))
        ∧ (r = .err →
            microStep s
              = (.again, statusUpdate (t.setBlk { s.blk with tRef := s.now, st := .idle }))))

/-- R316, R322 and R323: the abort, the drain and the guard of ASCII transmission. -/
def Obligations.AsciiAbortDrainAndGuard : Prop :=
  ∀ (s t : State) (r : DiscardResult), s.cfg.mode = .ascii → Machine.discard s.sampled = (r, t) →
    (s.blk.st.txActive = true → r = .err →
        microStep s = (.again, statusUpdate ((t.logCall (.txEnable false)).setBlk
          { s.blk with txen := false, tRef := s.now, st := .idle })))
    ∧ (s.blk.st = .txDrain → ∀ k u, r = .count k →
        (writeComplete t = (true, u) →
            microStep s = (.again, statusUpdate ((u.logCall (.txEnable false)).setBlk
              { s.blk with txen := false, tRef := s.now, st := .txGuard })))
        ∧ (writeComplete t = (false, u) →
            microStep s = (if 0 < k then .again else .done 0, statusUpdate u)))
    ∧ (s.blk.st = .txGuard →
        (r = .err → microStep s = (.again, statusUpdate (t.setBlk { s.blk with tRef := s.now })))
        ∧ (∀ k, 0 < k → r = .count k →
            microStep s = (.again, statusUpdate (t.setBlk { s.blk with tRef := s.now })))
        ∧ (r = .count 0 → s.cfg.asciiGuardTicks ≤ elapsed s.cfg s.blk.tRef s.now →
            microStep s = (.again, statusUpdate (t.setBlk { s.blk with st := .idle })))
        ∧ (r = .count 0 → elapsed s.cfg s.blk.tRef s.now < s.cfg.asciiGuardTicks →
            microStep s = (.done (s.cfg.asciiGuardTicks - elapsed s.cfg s.blk.tRef s.now),
              statusUpdate t)))

/-- R317 to R321, R402: the character phases of ASCII transmission: each writes its characters from the
cursor on, then passes to the next phase; the LRC takes the address on leaving TX_ADDRESS and each PDU
byte when its second digit has been accepted. The PDU is read once per micro-step (log 9). -/
def Obligations.AsciiTransmitPhases : Prop :=
  ∀ (s t : State) (k : Nat) (chars : List Byte) (after : St), s.cfg.mode = .ascii →
    Machine.discard s.sampled = (.count k, t) →
    ((s.blk.st = .txStart ∧ chars = [0x3A#8] ∧ after = .txAddress)
      ∨ (s.blk.st = .txAddress ∧ chars = hex2 s.blk.faddr ∧ after = .txPdu)
      ∨ (s.blk.st = .txPdu ∧ chars = s.pdu.flatMap hex2 ∧ after = .txChecksum)
      ∨ (s.blk.st = .txChecksum ∧ chars = hex2 (0#8 - s.blk.lrc) ∧ after = .txEnd)
      ∨ (s.blk.st = .txEnd ∧ chars = [0x0D#8, 0x0A#8] ∧ after = .txDrain)) →
    let offering := if s.blk.st = .txPdu then t.draw else t
    (s.blk.txPos = chars.length →
        microStep s = (.again, statusUpdate (offering.setBlk { s.blk with
          txPos := 0, st := after,
          lrc := if s.blk.st = .txAddress then s.blk.lrc + s.blk.faddr else s.blk.lrc })))
    ∧ (s.blk.txPos ≠ chars.length → ∀ w u, write (chars.drop s.blk.txPos) offering = (w, u) →
        (w = .err → microStep s = (.done 0, statusUpdate (u.setBlk { s.blk with st := .exception })))
        ∧ (w = .accepted 0 →
            microStep s = (if 0 < k then .again else .done 0, statusUpdate u))
        ∧ (∀ n, 0 < n → w = .accepted n →
            microStep s = (.again, statusUpdate (u.setBlk { s.blk with
              txPos := s.blk.txPos + n,
              lrc := if s.blk.st = .txPdu then
                  lrcUpdate s.blk.lrc ((s.pdu.drop (s.blk.txPos / 2)).take
                    ((s.blk.txPos + n) / 2 - s.blk.txPos / 2))
                else s.blk.lrc }))))

/-- R324: from SEND on, for as long as the transmission goes on and nothing is refused, what is on the
wire and what is left to write together are the frame of R111, whatever `Write` accepted; in TX_DRAIN
nothing is left. Every cell of the PDU has been written (U4). -/
def Obligations.AsciiTransmissionBytes : Prop :=
  ∀ (s t : State) (n : Nat), s.cfg.mode = .ascii → s.blk.st = .queue →
    s.blk.len < s.cfg.bufferMax → s.Safe → Memory.written s.blk.buf s.blk.len = true →
    exec .send s = .next t → (∀ k, k ≤ n → (microSteps k t).blk.st.txActive = true) →
    (microSteps n t).Safe →
    (microSteps n t).env.wire ++ asciiRemaining (microSteps n t)
        = s.env.wire ++ asciiBytes s.blk.faddr s.pdu
      ∧ ((microSteps n t).blk.st = .txDrain →
          (microSteps n t).env.wire = s.env.wire ++ asciiBytes s.blk.faddr s.pdu)

/-- R111, R115, R167, R304 to R312, seen whole: the ASCII_FRAME row received in IDLE (log 17). From an
accepted address and with its own LRC the frame is ready, its PDU in the buffer; with any other LRC it is
discarded to IDLE; so are a frame for another station and one that overflows the buffer. Every cell
outside the bytes stored reads as before. That the row is read ahead of bytes already queued and of
prescribed draws is the model's choice (log 34). Every other state, an attached dispatcher and a callback:
ArrivalsAreMicroSteps. -/
def Obligations.CharacterFrameReceived : Prop :=
  ∀ (s : State) (a : Byte) (pdu : List Byte) (l : Byte), s.cfg.mode = .ascii →
    s.blk.st = .idle → s.cfg.dispatcherAttached = false → s.NoCallback → s.blk.StatusOk s.cfg →
    let accepted := s.blk.station = 0#8 ∨ a = 0#8 ∨ a = s.blk.station
    ∃ t, exec (.asciiFrame a pdu l) s = .next t
      ∧ t.blk = { s.blk with
          st := t.blk.st, faddr := t.blk.faddr, len := t.blk.len, buf := t.blk.buf,
          lrc := t.blk.lrc, tRef := t.blk.tRef, rxN := t.blk.rxN, nib := t.blk.nib }
      ∧ t.cfg = s.cfg ∧ t.resetCfg = s.resetCfg ∧ t.result = s.result ∧ t.draws = s.draws
      ∧ t.polling = s.polling
      ∧ (accepted → pdu.length + 1 ≤ s.cfg.bufferMax →
          t.blk.faddr = a
          ∧ (l = lrc (a :: pdu) → t.blk.st = .frameReady ∧ t.blk.len = pdu.length)
          ∧ (l ≠ lrc (a :: pdu) → t.blk.st = .idle ∧ t.blk.len = s.blk.len)
          ∧ (∀ j, j < pdu.length → Memory.read t.blk.buf j = pdu[j]?)
          ∧ (∀ j, pdu.length + 1 ≤ j → Memory.read t.blk.buf j = Memory.read s.blk.buf j))
      ∧ (accepted → s.cfg.bufferMax < pdu.length + 1 →
          t.blk.st = .idle ∧ t.blk.faddr = a ∧ t.blk.len = s.blk.len)
      ∧ (¬ accepted →
          t.blk.st = .idle ∧ t.blk.faddr = s.blk.faddr ∧ t.blk.len = s.blk.len
          ∧ t.blk.buf = s.blk.buf)

/-! ### The dispatcher -/

/-- DISPATCH serves the request its PDU decodes to: it is the execution of that row, one draw later
(R354; log 9, 15). Outside FRAME_READY and COLLISION every request row is refused. -/
def Obligations.DispatchRunsDecodedRequest : Prop :=
  ∀ (s : State) (i : Instr),
    ((s.blk.st = .frameReady ∨ s.blk.st = .collision) → decodeRequest s.pdu = .ok i →
        ∃ t, exec .dispatch s = .next t ∧ exec i s.draw = .next t)
    ∧ (s.blk.st ≠ .frameReady → s.blk.st ≠ .collision → i.space = .request →
        exec i s = .next s.markRefused)

/-- R355: DISPATCH acknowledges an empty PDU, as FINISHED does; it is refused outside FRAME_READY and
COLLISION (R354, R224). -/
def Obligations.DispatchEmptyAndRefused : Prop :=
  ∀ s : State,
    (s.blk.st = .frameReady → s.blk.len = 0 →
        exec .dispatch s = .next (statusUpdate (s.setBlk { s.blk with st := .idle })))
    ∧ (s.blk.st = .collision → s.blk.len = 0 →
        ∃ t, exec .finished s = .next t ∧ exec .dispatch s = .next t)
    ∧ (s.blk.st ≠ .frameReady → s.blk.st ≠ .collision → exec .dispatch s = .next s.markRefused)

/-- R371, R372, R373: what follows a function's answer. A broadcast to a station other than 0 is
released silently; otherwise an exception code replaces the response by two bytes, and SEND hands the
buffer back. Every cell but those two reads as before. -/
def Obligations.HandBackAnswers : Prop :=
  ∀ (fc exc : Byte) (s : State),
    (s.blk.station ≠ 0#8 → s.blk.faddr = 0#8 → exec .finished s = .next (handBack fc exc s))
    ∧ ((s.blk.station = 0#8 ∨ s.blk.faddr ≠ 0#8) → exc = 0#8 →
        exec .send s = .next (handBack fc exc s))
    ∧ ((s.blk.station = 0#8 ∨ s.blk.faddr ≠ 0#8) → exc ≠ 0#8 →
        ∃ buf, exec .send (s.setBlk { s.blk with buf := buf, len := 2 }) = .next (handBack fc exc s)
          ∧ Memory.read buf 0 = some (fc ||| 0x80#8) ∧ Memory.read buf 1 = some exc
          ∧ ∀ j, 2 ≤ j → Memory.read buf j = Memory.read s.blk.buf j)

/-- R358, R360, R361, R370: READ_COILS and READ_DISCRETE_INPUTS (log 15); an answer of the wrong length is
refused (R351; log 10, 30). Every cell outside the response reads as before. -/
def Obligations.ReadBitsServed : Prop :=
  ∀ (s : State) (data : List Byte) (i : Instr) (fc : Byte) (call : U16 → U16 → HandlerCall),
    (s.blk.st = .frameReady ∨ s.blk.st = .collision) →
    ((i = .readCoils data ∧ fc = 0x01#8 ∧ call = .readCoils)
      ∨ (i = .readDiscreteInputs data ∧ fc = 0x02#8 ∧ call = .readDiscreteInputs)) →
    let q := (beginSend s).2
    let addr := be16 (data.getD 0 0#8) (data.getD 1 0#8)
    let number := be16 (data.getD 2 0#8) (data.getD 3 0#8)
    let count := number.toNat
    let size := (count + 7) / 8
    ((data.length ≠ 4 ∨ count = 0 ∨ s.cfg.bufferMax < 2 + size) →
        exec i s = .next (handBack fc 0x03#8 q))
    ∧ (data.length = 4 → count ≠ 0 → 2 + size ≤ s.cfg.bufferMax →
        ∀ ans u, callHandler (call addr number) q = (ans, u) →
        (ans.exc ≠ 0#8 → exec i s = .next (handBack fc ans.exc u))
        ∧ (ans.exc = 0#8 → ans.bytes.length ≠ size →
            ∃ t, exec i s = .next t ∧ t.blk = { s.blk with refused := true })
        ∧ (ans.exc = 0#8 → ans.bytes.length = size →
            ∃ buf, exec i s = .next (handBack fc 0#8
                (u.setBlk { u.blk with buf := buf, len := 2 + size }))
              ∧ Memory.read buf 1 = some (BitVec.ofNat 8 size)
              ∧ (∀ j, j < size → Memory.read buf (2 + j) = ans.bytes[j]?)
              ∧ (∀ j, (j = 0 ∨ 2 + size ≤ j) → Memory.read buf j = Memory.read s.blk.buf j)))

/-- R358, R362, R363, R370: READ_HOLDING_REGISTERS and READ_INPUT_REGISTERS (log 15); an answer of the
wrong length is refused (R351; log 10, 30). Every cell outside the response reads as before. -/
def Obligations.ReadRegistersServed : Prop :=
  ∀ (s : State) (data : List Byte) (i : Instr) (fc : Byte) (call : U16 → U16 → HandlerCall),
    (s.blk.st = .frameReady ∨ s.blk.st = .collision) →
    ((i = .readHoldingRegisters data ∧ fc = 0x03#8 ∧ call = .readHoldingRegisters)
      ∨ (i = .readInputRegisters data ∧ fc = 0x04#8 ∧ call = .readInputRegisters)) →
    let q := (beginSend s).2
    let addr := be16 (data.getD 0 0#8) (data.getD 1 0#8)
    let number := be16 (data.getD 2 0#8) (data.getD 3 0#8)
    let count := number.toNat
    ((data.length ≠ 4 ∨ count = 0 ∨ s.cfg.bufferMax < 2 + 2 * count) →
        exec i s = .next (handBack fc 0x03#8 q))
    ∧ (data.length = 4 → count ≠ 0 → 2 + 2 * count ≤ s.cfg.bufferMax →
        ∀ ans u, callHandler (call addr number) q = (ans, u) →
        (ans.exc ≠ 0#8 → exec i s = .next (handBack fc ans.exc u))
        ∧ (ans.exc = 0#8 → ans.regs.length ≠ count →
            ∃ t, exec i s = .next t ∧ t.blk = { s.blk with refused := true })
        ∧ (ans.exc = 0#8 → ans.regs.length = count →
            ∃ buf, exec i s = .next (handBack fc 0#8
                (u.setBlk { u.blk with buf := buf, len := 2 + 2 * count }))
              ∧ Memory.read buf 1 = some (BitVec.ofNat 8 (2 * count))
              ∧ (∀ j, j < count →
                  Memory.read buf (2 + 2 * j) = (ans.regs[j]?).map hiByte
                  ∧ Memory.read buf (3 + 2 * j) = (ans.regs[j]?).map loByte)
              ∧ (∀ j, (j = 0 ∨ 2 + 2 * count ≤ j) →
                  Memory.read buf j = Memory.read s.blk.buf j)))

/-- R364, R365, R370: WRITE_SINGLE_COIL and WRITE_SINGLE_REGISTER (log 15); the acknowledgement is the request,
5 bytes long, so no cell of the buffer is written on success. -/
def Obligations.WriteSingleServed : Prop :=
  ∀ (s : State) (data : List Byte), (s.blk.st = .frameReady ∨ s.blk.st = .collision) →
    let q := (beginSend s).2
    let addr := be16 (data.getD 0 0#8) (data.getD 1 0#8)
    let value := be16 (data.getD 2 0#8) (data.getD 3 0#8)
    ((data.length ≠ 4 ∨ (value ≠ 0x0000#16 ∧ value ≠ 0xFF00#16)) →
        exec (.writeSingleCoil data) s = .next (handBack 0x05#8 0x03#8 q))
    ∧ (∀ on ans u, data.length = 4 →
        ((value = 0xFF00#16 ∧ on = true) ∨ (value = 0x0000#16 ∧ on = false)) →
        callHandler (.writeSingleCoil addr on) q = (ans, u) →
        (ans.exc ≠ 0#8 → exec (.writeSingleCoil data) s = .next (handBack 0x05#8 ans.exc u))
        ∧ (ans.exc = 0#8 →
            exec (.writeSingleCoil data) s
              = .next (handBack 0x05#8 0#8 (u.setBlk { u.blk with len := 5 }))))
    ∧ (data.length ≠ 4 →
        exec (.writeSingleRegister data) s = .next (handBack 0x06#8 0x03#8 q))
    ∧ (∀ ans u, data.length = 4 →
        callHandler (.writeSingleRegister addr value) q = (ans, u) →
        (ans.exc ≠ 0#8 → exec (.writeSingleRegister data) s = .next (handBack 0x06#8 ans.exc u))
        ∧ (ans.exc = 0#8 →
            exec (.writeSingleRegister data) s
              = .next (handBack 0x06#8 0#8 (u.setBlk { u.blk with len := 5 }))))

/-- R359, R366, R367, R370: WRITE_MULTIPLE_COILS and WRITE_MULTIPLE_REGISTERS (log 15); the acknowledgement is
the first 5 bytes of the request, so no cell of the buffer is written on success. -/
def Obligations.WriteMultipleServed : Prop :=
  ∀ (s : State) (data : List Byte), (s.blk.st = .frameReady ∨ s.blk.st = .collision) →
    let q := (beginSend s).2
    let addr := be16 (data.getD 0 0#8) (data.getD 1 0#8)
    let number := be16 (data.getD 2 0#8) (data.getD 3 0#8)
    let count := number.toNat
    let bc := (data.getD 4 0#8).toNat
    ((data.length < 5 ∨ bc ≠ (count + 7) / 8 ∨ bc + 5 ≠ data.length) →
        exec (.writeMultipleCoils data) s = .next (handBack 0x0F#8 0x03#8 q))
    ∧ (∀ ans u, 5 ≤ data.length → bc = (count + 7) / 8 → bc + 5 = data.length →
        callHandler (.writeMultipleCoils addr number (data.drop 5)) q
          = (ans, u) →
        (ans.exc ≠ 0#8 → exec (.writeMultipleCoils data) s = .next (handBack 0x0F#8 ans.exc u))
        ∧ (ans.exc = 0#8 →
            exec (.writeMultipleCoils data) s
              = .next (handBack 0x0F#8 0#8 (u.setBlk { u.blk with len := 5 }))))
    ∧ ((data.length < 5 ∨ bc ≠ 2 * count ∨ bc + 5 ≠ data.length) →
        exec (.writeMultipleRegisters data) s = .next (handBack 0x10#8 0x03#8 q))
    ∧ (∀ ans u, 5 ≤ data.length → bc = 2 * count → bc + 5 = data.length →
        callHandler (.writeMultipleRegisters addr number
            ((List.range count).map fun j =>
              be16 (data.getD (5 + 2 * j) 0#8) (data.getD (6 + 2 * j) 0#8))) q
          = (ans, u) →
        (ans.exc ≠ 0#8 → exec (.writeMultipleRegisters data) s = .next (handBack 0x10#8 ans.exc u))
        ∧ (ans.exc = 0#8 →
            exec (.writeMultipleRegisters data) s
              = .next (handBack 0x10#8 0#8 (u.setBlk { u.blk with len := 5 }))))

/-- R357, R128: every other function code is answered 0x01 with no handler call and no length check
(log 15). -/
def Obligations.IllegalFunctionServed : Prop :=
  ∀ (s : State) (fc : Byte) (data : List Byte),
    (s.blk.st = .frameReady ∨ s.blk.st = .collision) →
    exec (.illegalFunction fc data) s = .next (handBack fc 0x01#8 (beginSend s).2)
    ∧ (isFunctionCode fc = false → decodeRequest (fc :: data) = .ok (.illegalFunction fc data))

/-- R126 and R372: an exception response encoded in the buffer that the application composes in
(log 18). Every cell but those two reads as before; elsewhere the row is refused. -/
def Obligations.ExceptionResponseEncoded : Prop :=
  ∀ (s : State) (fc code : Byte),
    ((s.blk.st = .queue ∨ s.blk.st = .collision) →
        ∃ buf, exec (.exceptionResponse fc code) s
            = .next (s.setBlk { s.blk with buf := buf, len := 2 })
          ∧ Memory.read buf 0 = some (fc ||| 0x80#8) ∧ Memory.read buf 1 = some code
          ∧ ∀ j, 2 ≤ j → Memory.read buf j = Memory.read s.blk.buf j)
    ∧ (s.blk.st ≠ .queue → s.blk.st ≠ .collision →
        exec (.exceptionResponse fc code) s = .next s.markRefused)

/-- R352 and R353: an absent handler and an unimplemented call answer 0x01 with no effect; an
unimplemented single write becomes the multiple write with count 1; a call the handler implements is
answered by the agent, whose next prescribed answer is taken (R351). -/
def Obligations.HandlerDefaults : Prop :=
  ∀ (s : State) (ops : HandlerOps),
    (∀ c, s.cfg.handler = none → (callHandler c s).1.exc = 0x01#8 ∧ (callHandler c s).2 = s)
    ∧ (s.cfg.handler = some ops →
        (∀ a n, ops.readCoils = false → (callHandler (.readCoils a n) s).1.exc = 0x01#8
            ∧ (callHandler (.readCoils a n) s).2 = s)
        ∧ (∀ a n, ops.readDiscreteInputs = false →
            (callHandler (.readDiscreteInputs a n) s).1.exc = 0x01#8
            ∧ (callHandler (.readDiscreteInputs a n) s).2 = s)
        ∧ (∀ a n, ops.readHoldingRegisters = false →
            (callHandler (.readHoldingRegisters a n) s).1.exc = 0x01#8
            ∧ (callHandler (.readHoldingRegisters a n) s).2 = s)
        ∧ (∀ a n, ops.readInputRegisters = false →
            (callHandler (.readInputRegisters a n) s).1.exc = 0x01#8
            ∧ (callHandler (.readInputRegisters a n) s).2 = s)
        ∧ (∀ a n bs, ops.writeMultipleCoils = false →
            (callHandler (.writeMultipleCoils a n bs) s).1.exc = 0x01#8
            ∧ (callHandler (.writeMultipleCoils a n bs) s).2 = s)
        ∧ (∀ a n vs, ops.writeMultipleRegisters = false →
            (callHandler (.writeMultipleRegisters a n vs) s).1.exc = 0x01#8
            ∧ (callHandler (.writeMultipleRegisters a n vs) s).2 = s)
        ∧ (∀ a on, ops.writeSingleCoil = false →
            callHandler (.writeSingleCoil a on) s
              = callHandler (.writeMultipleCoils a 1#16 [if on then 0x01#8 else 0x00#8]) s)
        ∧ (∀ a v, ops.writeSingleRegister = false →
            callHandler (.writeSingleRegister a v) s
              = callHandler (.writeMultipleRegisters a 1#16 [v]) s)
        ∧ (∀ c ans rest, c.implementedBy ops = true → s.env.handlerScript = ans :: rest →
            callHandler c s
              = (ans, (s.setEnv { s.env with handlerScript := rest }).logCall (.handler c ans))))

/-! ### The whole machine -/

/-- Every step keeps the invariant, and so does every instruction, the rows that no command word carries
too: configuration admitted, state of the mode, buffer canonical and in bounds (R82), thresholds
representable (R11), transmit cursor in its phase (R49), driver level (R50, R459), last status
reported (R51), `S.in_poll` only while a POLL executes (R52). -/
def Obligations.InvariantIsKept : Prop :=
  (∀ s t : State, s.Inv → step s = .next t → t.Inv)
    ∧ ∀ (i : Instr) (s t : State), s.Inv → exec i s = .next t → t.Inv

/-- R162, R167, R43, R44: every step keeps the accumulators over the address and the bytes stored, so
neither checksum is ever recomputed over the buffer. -/
def Obligations.StepKeepsAccumulators : Prop :=
  ∀ s t : State, s.CrcOk → s.LrcOk → step s = .next t → t.CrcOk ∧ t.LrcOk

/-- R403, R401, R402: what enters EXCEPTION. A micro-step does so only by a `Write` that answered ERR
in a transmit state or, at the end of a reception, by a SEND of a buffer at capacity; a command only by
such a SEND, its own or the dispatcher's. -/
def Obligations.NothingElseEntersException : Prop :=
  (∀ (s t : State) (a : StepAnswer), s.blk.st ≠ .exception → microStep s = (a, t) →
      t.blk.st = .exception →
      (s.blk.st.txActive = true
        ∧ ∃ offered, .write offered .err ∈ t.env.calls.drop s.env.calls.length)
      ∨ ((s.blk.st = .receive ∨ s.blk.st = .rxLf) ∧ t.cfg.bufferMax ≤ t.blk.len))
  ∧ (∀ (i : Instr) (s t : State), s.blk.st ≠ .exception →
      (i.space = .command ∨ i.space = .request ∨ i.space = .response) → i ≠ .poll →
      exec i s = .next t → t.blk.st = .exception →
      (i = .send ∨ i = .dispatch ∨ i.space = .request)
        ∧ (s.blk.st = .queue ∨ s.blk.st = .frameReady) ∧ t.cfg.bufferMax ≤ t.blk.len)

/-- R405: in EXCEPTION nothing but RESET leaves the state, and RESET of an admitted configuration does; no
capability is called, and only the station address, the baud rate with its thresholds, and the refusal
mark can change (R404). -/
def Obligations.OnlyResetLeavesException : Prop :=
  (∀ s : State, s.blk.st = .exception → Config.valid s.resetCfg = true →
    ∃ t, exec .reset s = .next t ∧ t.blk.st ≠ .exception)
  ∧ ∀ (i : Instr) (s t : State), s.blk.st = .exception → i ≠ .reset → exec i s = .next t →
    t.blk = { s.blk with
        station := t.blk.station, baud := t.blk.baud, t15 := t.blk.t15, t35 := t.blk.t35,
        t1s := t.blk.t1s, refused := t.blk.refused }
      ∧ t.cfg = s.cfg ∧ t.env.calls = s.env.calls ∧ t.env.now = s.env.now ∧ t.polling = s.polling
      ∧ (t.blk.station ≠ s.blk.station → ∃ a, i = .setStationAddress a)
      ∧ ((t.blk.baud ≠ s.blk.baud ∨ t.blk.t15 ≠ s.blk.t15 ∨ t.blk.t35 ≠ s.blk.t35
          ∨ t.blk.t1s ≠ s.blk.t1s) → ∃ b, i = .setup b)
      ∧ (t.env ≠ s.env → i.space = .rtuFrame ∨ i.space = .asciiFrame ∨ i.space = .character)

/-- R33: the buffer is written only by its holder: by a command while the application holds it (RESET,
which constructs it anew, aside), by a micro-step while reception does. -/
def Obligations.BufferWrittenByItsHolder : Prop :=
  (∀ (i : Instr) (s t : State), (i.space = .command ∨ i.space = .request ∨ i.space = .response) →
      i ≠ .poll → i ≠ .reset → exec i s = .next t → t.blk.buf ≠ s.blk.buf →
      s.blk.st.holder = .application)
  ∧ (∀ (s t : State) (a : StepAnswer), microStep s = (a, t) → t.blk.buf ≠ s.blk.buf →
      s.blk.st.holder = .reception)

/-- R30, R53: no instruction but RESET changes the configuration or clears the refusal mark, where no
external callback could issue one (log 14). -/
def Obligations.OnlyResetReconfigures : Prop :=
  ∀ (i : Instr) (s t : State), i ≠ .reset → s.NoCallback → exec i s = .next t →
    t.cfg = s.cfg ∧ t.resetCfg = s.resetCfg ∧ (s.blk.refused = true → t.blk.refused = true)

end
end

