-- ==== Sys2Proof/Laws/State.lean ====
section
/-! SUPPORT. One lemma per field per named update of the state, so that no proof unfolds a record
update. -/

namespace Sys2Proof.Machine

@[simp] theorem State.setBlk_cfg (s : State) (b : Block) : (s.setBlk b).cfg = s.cfg := rfl
@[simp] theorem State.setBlk_blk (s : State) (b : Block) : (s.setBlk b).blk = b := rfl
@[simp] theorem State.setBlk_env (s : State) (b : Block) : (s.setBlk b).env = s.env := rfl
@[simp] theorem State.setBlk_resetCfg (s : State) (b : Block) : (s.setBlk b).resetCfg = s.resetCfg := rfl
@[simp] theorem State.setBlk_result (s : State) (b : Block) : (s.setBlk b).result = s.result := rfl
@[simp] theorem State.setBlk_draws (s : State) (b : Block) : (s.setBlk b).draws = s.draws := rfl
@[simp] theorem State.setBlk_polling (s : State) (b : Block) : (s.setBlk b).polling = s.polling := rfl

@[simp] theorem State.setEnv_cfg (s : State) (e : Env) : (s.setEnv e).cfg = s.cfg := rfl
@[simp] theorem State.setEnv_blk (s : State) (e : Env) : (s.setEnv e).blk = s.blk := rfl
@[simp] theorem State.setEnv_env (s : State) (e : Env) : (s.setEnv e).env = e := rfl
@[simp] theorem State.setEnv_resetCfg (s : State) (e : Env) : (s.setEnv e).resetCfg = s.resetCfg := rfl
@[simp] theorem State.setEnv_result (s : State) (e : Env) : (s.setEnv e).result = s.result := rfl
@[simp] theorem State.setEnv_draws (s : State) (e : Env) : (s.setEnv e).draws = s.draws := rfl
@[simp] theorem State.setEnv_polling (s : State) (e : Env) : (s.setEnv e).polling = s.polling := rfl

@[simp] theorem State.setResult_cfg (s : State) (r : Result) : (s.setResult r).cfg = s.cfg := rfl
@[simp] theorem State.setResult_blk (s : State) (r : Result) : (s.setResult r).blk = s.blk := rfl
@[simp] theorem State.setResult_env (s : State) (r : Result) : (s.setResult r).env = s.env := rfl
@[simp] theorem State.setResult_resetCfg (s : State) (r : Result) : (s.setResult r).resetCfg = s.resetCfg := rfl
@[simp] theorem State.setResult_result (s : State) (r : Result) : (s.setResult r).result = r := rfl
@[simp] theorem State.setResult_draws (s : State) (r : Result) : (s.setResult r).draws = s.draws := rfl
@[simp] theorem State.setResult_polling (s : State) (r : Result) : (s.setResult r).polling = s.polling := rfl

@[simp] theorem State.draw_cfg (s : State) : (s.draw).cfg = s.cfg := rfl
@[simp] theorem State.draw_blk (s : State) : (s.draw).blk = s.blk := rfl
@[simp] theorem State.draw_env (s : State) : (s.draw).env = s.env := rfl
@[simp] theorem State.draw_resetCfg (s : State) : (s.draw).resetCfg = s.resetCfg := rfl
@[simp] theorem State.draw_result (s : State) : (s.draw).result = s.result := rfl
@[simp] theorem State.draw_draws (s : State) : (s.draw).draws = s.draws + 1 := rfl
@[simp] theorem State.draw_polling (s : State) : (s.draw).polling = s.polling := rfl

@[simp] theorem State.goto_cfg (s : State) (x : St) : (s.goto x).cfg = s.cfg := rfl
@[simp] theorem State.goto_blk (s : State) (x : St) : (s.goto x).blk = { s.blk with st := x } := rfl
@[simp] theorem State.goto_env (s : State) (x : St) : (s.goto x).env = s.env := rfl
@[simp] theorem State.goto_resetCfg (s : State) (x : St) : (s.goto x).resetCfg = s.resetCfg := rfl
@[simp] theorem State.goto_result (s : State) (x : St) : (s.goto x).result = s.result := rfl
@[simp] theorem State.goto_draws (s : State) (x : St) : (s.goto x).draws = s.draws := rfl
@[simp] theorem State.goto_polling (s : State) (x : St) : (s.goto x).polling = s.polling := rfl

@[simp] theorem State.gotoAt_cfg (s : State) (x : St) (now : Nat) : (s.gotoAt x now).cfg = s.cfg := rfl
@[simp] theorem State.gotoAt_blk (s : State) (x : St) (now : Nat) : (s.gotoAt x now).blk = { s.blk with st := x, tRef := now } := rfl
@[simp] theorem State.gotoAt_env (s : State) (x : St) (now : Nat) : (s.gotoAt x now).env = s.env := rfl
@[simp] theorem State.gotoAt_resetCfg (s : State) (x : St) (now : Nat) : (s.gotoAt x now).resetCfg = s.resetCfg := rfl
@[simp] theorem State.gotoAt_result (s : State) (x : St) (now : Nat) : (s.gotoAt x now).result = s.result := rfl
@[simp] theorem State.gotoAt_draws (s : State) (x : St) (now : Nat) : (s.gotoAt x now).draws = s.draws := rfl
@[simp] theorem State.gotoAt_polling (s : State) (x : St) (now : Nat) : (s.gotoAt x now).polling = s.polling := rfl

@[simp] theorem State.logCall_cfg (s : State) (c : Call) : (s.logCall c).cfg = s.cfg := rfl
@[simp] theorem State.logCall_blk (s : State) (c : Call) : (s.logCall c).blk = s.blk := rfl
@[simp] theorem State.logCall_env (s : State) (c : Call) : (s.logCall c).env = { s.env with calls := s.env.calls ++ [c] } := rfl
@[simp] theorem State.logCall_resetCfg (s : State) (c : Call) : (s.logCall c).resetCfg = s.resetCfg := rfl
@[simp] theorem State.logCall_result (s : State) (c : Call) : (s.logCall c).result = s.result := rfl
@[simp] theorem State.logCall_draws (s : State) (c : Call) : (s.logCall c).draws = s.draws := rfl
@[simp] theorem State.logCall_polling (s : State) (c : Call) : (s.logCall c).polling = s.polling := rfl

@[simp] theorem State.writeBuf_cfg (s : State) (i : Nat) (bs : List Byte) : (s.writeBuf i bs).cfg = s.cfg := rfl
@[simp] theorem State.writeBuf_blk (s : State) (i : Nat) (bs : List Byte) : (s.writeBuf i bs).blk = { s.blk with buf := Memory.writeBytes s.blk.buf i bs } := rfl
@[simp] theorem State.writeBuf_env (s : State) (i : Nat) (bs : List Byte) : (s.writeBuf i bs).env = s.env := rfl
@[simp] theorem State.writeBuf_resetCfg (s : State) (i : Nat) (bs : List Byte) : (s.writeBuf i bs).resetCfg = s.resetCfg := rfl
@[simp] theorem State.writeBuf_result (s : State) (i : Nat) (bs : List Byte) : (s.writeBuf i bs).result = s.result := rfl
@[simp] theorem State.writeBuf_draws (s : State) (i : Nat) (bs : List Byte) : (s.writeBuf i bs).draws = s.draws := rfl
@[simp] theorem State.writeBuf_polling (s : State) (i : Nat) (bs : List Byte) : (s.writeBuf i bs).polling = s.polling := rfl

@[simp] theorem State.setLen_cfg (s : State) (n : Nat) : (s.setLen n).cfg = s.cfg := rfl
@[simp] theorem State.setLen_blk (s : State) (n : Nat) : (s.setLen n).blk = { s.blk with len := n } := rfl
@[simp] theorem State.setLen_env (s : State) (n : Nat) : (s.setLen n).env = s.env := rfl
@[simp] theorem State.setLen_resetCfg (s : State) (n : Nat) : (s.setLen n).resetCfg = s.resetCfg := rfl
@[simp] theorem State.setLen_result (s : State) (n : Nat) : (s.setLen n).result = s.result := rfl
@[simp] theorem State.setLen_draws (s : State) (n : Nat) : (s.setLen n).draws = s.draws := rfl
@[simp] theorem State.setLen_polling (s : State) (n : Nat) : (s.setLen n).polling = s.polling := rfl

@[simp] theorem State.markRefused_cfg (s : State) : (s.markRefused).cfg = s.cfg := rfl
@[simp] theorem State.markRefused_blk (s : State) : (s.markRefused).blk = { s.blk with refused := true } := rfl
@[simp] theorem State.markRefused_env (s : State) : (s.markRefused).env = s.env := rfl
@[simp] theorem State.markRefused_resetCfg (s : State) : (s.markRefused).resetCfg = s.resetCfg := rfl
@[simp] theorem State.markRefused_result (s : State) : (s.markRefused).result = s.result := rfl
@[simp] theorem State.markRefused_draws (s : State) : (s.markRefused).draws = s.draws := rfl
@[simp] theorem State.markRefused_polling (s : State) : (s.markRefused).polling = s.polling := rfl

@[simp] theorem State.setPolling_cfg (s : State) (p : Bool) : (s.setPolling p).cfg = s.cfg := rfl
@[simp] theorem State.setPolling_blk (s : State) (p : Bool) : (s.setPolling p).blk = s.blk := rfl
@[simp] theorem State.setPolling_env (s : State) (p : Bool) : (s.setPolling p).env = s.env := rfl
@[simp] theorem State.setPolling_resetCfg (s : State) (p : Bool) : (s.setPolling p).resetCfg = s.resetCfg := rfl
@[simp] theorem State.setPolling_result (s : State) (p : Bool) : (s.setPolling p).result = s.result := rfl
@[simp] theorem State.setPolling_draws (s : State) (p : Bool) : (s.setPolling p).draws = s.draws := rfl
@[simp] theorem State.setPolling_polling (s : State) (p : Bool) : (s.setPolling p).polling = p := rfl

@[simp] theorem State.setBlk_setBlk (s : State) (b c : Block) :
    (s.setBlk b).setBlk c = s.setBlk c := rfl

@[simp] theorem State.setBlk_self (s : State) : s.setBlk s.blk = s := rfl

@[simp] theorem State.setEnv_self (s : State) : s.setEnv s.env = s := rfl

theorem State.setBlk_setEnv (s : State) (b : Block) (e : Env) :
    (s.setBlk b).setEnv e = (s.setEnv e).setBlk b := rfl

theorem State.setBlk_logCall (s : State) (b : Block) (c : Call) :
    (s.setBlk b).logCall c = (s.logCall c).setBlk b := rfl

theorem State.setBlk_setPolling (s : State) (b : Block) (p : Bool) :
    (s.setBlk b).setPolling p = (s.setPolling p).setBlk b := rfl

theorem State.setBlk_draw (s : State) (b : Block) : (s.setBlk b).draw = s.draw.setBlk b := rfl

@[simp] theorem refuse_eq (r : RefuseReason) (s : State) : refuse r s = s.markRefused := rfl

end Sys2Proof.Machine
end

