-- ==== Sys2Proof/Laws/Memory.lean ====
section
/-! SUPPORT. The laws of the PDU buffer: reads after writes, and that every operation keeps the canonical
form and the bound. -/

namespace Sys2Proof.Machine

/-- A cell reads as the last value written to it; every other cell is left alone. -/
theorem Memory.read_write (m : Memory) (i j : Nat) (v : Byte) :
    Memory.read (Memory.write m i v) j = if j = i then some v else Memory.read m j := by
  induction m with
  | nil => simp only [Memory.write, Memory.read, eq_comm]
  | cons c m ih =>
    obtain ⟨a, b⟩ := c
    by_cases h1 : i < a
    · simp only [Memory.write, if_pos h1, Memory.read, eq_comm]
    · by_cases h2 : i = a
      · subst h2
        simp only [Memory.write, Nat.lt_irrefl, if_false, if_true, Memory.read]
        by_cases hj : i = j
        · rw [if_pos hj, if_pos hj.symm]
        · rw [if_neg hj, if_neg (Ne.symm hj), if_neg hj]
      · simp only [Memory.write, if_neg h1, if_neg h2, Memory.read, ih]
        split <;> split <;> simp_all

theorem Memory.read_write_same (m : Memory) (i : Nat) (v : Byte) :
    Memory.read (Memory.write m i v) i = some v := by
  rw [Memory.read_write, if_pos rfl]

theorem Memory.read_write_other (m : Memory) (i j : Nat) (v : Byte) (h : j ≠ i) :
    Memory.read (Memory.write m i v) j = Memory.read m j := by
  rw [Memory.read_write, if_neg h]

/-- The bytes written from `i` on read back in order; every other cell is left alone. -/
theorem Memory.read_writeBytes (bs : List Byte) : ∀ (m : Memory) (i j : Nat),
    Memory.read (Memory.writeBytes m i bs) j
      = if i ≤ j ∧ j < i + bs.length then bs[j - i]? else Memory.read m j := by
  induction bs with
  | nil => intro m i j; simp only [Memory.writeBytes, List.length_nil]; rw [if_neg (by omega)]
  | cons b bs ih =>
    intro m i j
    rw [Memory.writeBytes, ih, Memory.read_write, List.length_cons]
    by_cases h : j = i
    · subst h; rw [if_neg (by omega), if_pos rfl, if_pos (by omega)]; simp
    · by_cases h2 : i + 1 ≤ j ∧ j < i + 1 + bs.length
      · rw [if_pos h2, if_pos (by omega), show j - i = (j - (i + 1)) + 1 by omega]; simp
      · rw [if_neg h2, if_neg h, if_neg (by omega)]

/-- Strictly rising indexes, all above `i`. -/
def Memory.above (i : Nat) : Memory → Prop
  | [] => True
  | (a, _) :: m => i < a ∧ Memory.above a m

theorem Memory.wf_cons (a : Nat) (b : Byte) (m : Memory) :
    Memory.wf ((a, b) :: m) = true ↔ Memory.above a m := by
  induction m generalizing a b with
  | nil => simp [Memory.wf, Memory.above]
  | cons c m ih =>
    obtain ⟨a', b'⟩ := c
    simp [Memory.wf, Memory.above, ih]

theorem Memory.above_write (m : Memory) (i j : Nat) (v : Byte) (h : Memory.above j m) (hi : j < i) :
    Memory.above j (Memory.write m i v) := by
  induction m generalizing j with
  | nil => exact ⟨hi, trivial⟩
  | cons c m ih =>
    obtain ⟨a, b⟩ := c
    obtain ⟨h1, h2⟩ := h
    by_cases ha : i < a
    · simp only [Memory.write, if_pos ha]; exact ⟨hi, ha, h2⟩
    · by_cases he : i = a
      · subst he; simp only [Memory.write, Nat.lt_irrefl, if_false, if_true]; exact ⟨h1, h2⟩
      · simp only [Memory.write, if_neg ha, if_neg he]
        exact ⟨h1, ih a h2 (by omega)⟩

/-- A write keeps the canonical form. -/
theorem Memory.wf_write (m : Memory) (i : Nat) (v : Byte) (h : Memory.wf m = true) :
    Memory.wf (Memory.write m i v) = true := by
  cases m with
  | nil => rfl
  | cons c m =>
    obtain ⟨a, b⟩ := c
    rw [Memory.wf_cons] at h
    by_cases ha : i < a
    · simp only [Memory.write, if_pos ha]; rw [Memory.wf_cons]; exact ⟨ha, h⟩
    · by_cases he : i = a
      · subst he
        simp only [Memory.write, Nat.lt_irrefl, if_false, if_true]; rw [Memory.wf_cons]; exact h
      · simp only [Memory.write, if_neg ha, if_neg he]; rw [Memory.wf_cons]
        exact Memory.above_write m i a v h (by omega)

theorem Memory.wf_writeBytes (bs : List Byte) : ∀ (m : Memory) (i : Nat), Memory.wf m = true →
    Memory.wf (Memory.writeBytes m i bs) = true := by
  induction bs with
  | nil => intro m i h; exact h
  | cons b bs ih => intro m i h; exact ih _ _ (Memory.wf_write m i b h)

/-- A write below the bound keeps every index below it. -/
theorem Memory.below_write (m : Memory) (i n : Nat) (v : Byte) (h : Memory.below m n = true)
    (hi : i < n) : Memory.below (Memory.write m i v) n = true := by
  induction m with
  | nil => simpa [Memory.write, Memory.below] using hi
  | cons c m ih =>
    obtain ⟨a, b⟩ := c
    simp only [Memory.below, List.all_cons, Bool.and_eq_true, decide_eq_true_eq] at h ih
    by_cases ha : i < a
    · simp [Memory.write, if_pos ha, Memory.below, hi, h.1]; simpa using h.2
    · by_cases he : i = a
      · subst he; simp [Memory.write, Memory.below, hi]; simpa using h.2
      · simp only [Memory.write, if_neg ha, if_neg he, Memory.below, List.all_cons, Bool.and_eq_true,
          decide_eq_true_eq]
        exact ⟨h.1, ih h.2⟩

theorem Memory.below_writeBytes (bs : List Byte) : ∀ (m : Memory) (i n : Nat),
    Memory.below m n = true → i + bs.length ≤ n → Memory.below (Memory.writeBytes m i bs) n = true := by
  induction bs with
  | nil => intro m i n h _; exact h
  | cons b bs ih =>
    intro m i n h hi
    rw [List.length_cons] at hi
    exact ih _ _ _ (Memory.below_write m i n b h (by omega)) (by omega)

/-- `written` says that every cell below `n` has been written. -/
theorem Memory.written_iff (m : Memory) (n : Nat) :
    Memory.written m n = true ↔ ∀ i, i < n → ∃ v, Memory.read m i = some v := by
  simp [Memory.written, Option.isSome_iff_exists]

/-- A written cell reads as the byte written, at every draw. -/
theorem State.cell_of_read (s : State) (i : Nat) (v : Byte) (h : Memory.read s.blk.buf i = some v) :
    s.cell i = v := by
  simp only [State.cell, h]

theorem State.cells_length (s : State) (i j : Nat) : (s.cells i j).length = j - i := by
  simp [State.cells]

theorem State.pdu_length (s : State) : s.pdu.length = s.blk.len := by
  simp [State.pdu, State.cells_length]

/-- Written cells do not depend on the draws. -/
theorem State.cells_congr (s t : State) (i j : Nat) (hb : t.blk.buf = s.blk.buf)
    (h : Memory.written s.blk.buf j = true) : t.cells i j = s.cells i j := by
  rw [Memory.written_iff] at h
  simp only [State.cells]
  apply List.map_congr_left
  intro k hk
  obtain ⟨v, hv⟩ := h (i + k) (by have := List.mem_range.mp hk; omega)
  rw [State.cell_of_read s _ v hv, State.cell_of_read t _ v (by rw [hb]; exact hv)]

/-- The memory of the state after reset has the canonical form. -/
theorem State.reset_wf : Memory.wf State.reset.blk.buf = true := rfl

end Sys2Proof.Machine
end

