-- ==== Sys2Proof/Laws/Ops.lean ====
section
/-! SUPPORT. One lemma for each shared operation: everything it can do. -/

namespace Sys2Proof.Machine

/-! ### Capability calls: the block, the configuration and the draws stay as they are -/

/-- What a call of an agent leaves alone. -/
structure SameBlock (s t : State) : Prop where
  blk : t.blk = s.blk
  cfg : t.cfg = s.cfg
  resetCfg : t.resetCfg = s.resetCfg
  result : t.result = s.result
  draws : t.draws = s.draws
  polling : t.polling = s.polling
  inputs : t.env.inputs = s.env.inputs
  callback : t.env.callback = s.env.callback

theorem SameBlock.trans {s t u : State} (h : SameBlock s t) (k : SameBlock t u) : SameBlock s u :=
  ⟨k.blk.trans h.blk, k.cfg.trans h.cfg, k.resetCfg.trans h.resetCfg, k.result.trans h.result,
    k.draws.trans h.draws, k.polling.trans h.polling, k.inputs.trans h.inputs, k.callback.trans h.callback⟩

theorem ticks_same (s : State) : SameBlock s (ticks s).2 := by
  unfold ticks; split <;> exact ⟨rfl, rfl, rfl, rfl, rfl, rfl, rfl, rfl⟩

theorem ticks_lt (s : State) : (ticks s).1 < s.cfg.tickModulus := by
  have h : 0 < s.cfg.tickModulus := Nat.two_pow_pos _
  unfold ticks; split <;> exact Nat.mod_lt _ h

theorem ticks_calls (s : State) :
    (ticks s).2.env.calls = s.env.calls ++ [.ticks (ticks s).1] := by
  unfold ticks; split <;> rfl

theorem rxAnswer_same (n : Nat) (s : State) : SameBlock s (rxAnswer n s).2 := by
  unfold rxAnswer
  split
  · exact ⟨rfl, rfl, rfl, rfl, rfl, rfl, rfl, rfl⟩
  · split
    · exact ⟨rfl, rfl, rfl, rfl, rfl, rfl, rfl, rfl⟩
    · split <;> exact ⟨rfl, rfl, rfl, rfl, rfl, rfl, rfl, rfl⟩

/-- A request for at least one byte is answered `ERR` or exactly one byte by a stream that never pauses. -/
theorem endlessAnswer_cases {n : Nat} (k : Nat) (h : 0 < n) :
    endlessAnswer n k = .err ∨ ∃ b, endlessAnswer n k = .bytes [b] := by
  unfold endlessAnswer
  split
  · exact .inl rfl
  · obtain ⟨m, rfl⟩ := Nat.exists_eq_succ_of_ne_zero h.ne'
    exact .inr ⟨_, by rw [List.take_succ_cons, List.take_nil]⟩

/-- While the stream never pauses and no draw is prescribed, a request for at least one byte is answered
`ERR` or bytes, at most as many as asked for, and the stream never pauses afterwards either (R222). -/
theorem rxAnswer_endless {n k : Nat} {s : State} (hn : 0 < n) (hs : s.env.rxScript = [])
    (hk : s.env.rxEndless = some k) :
    ((rxAnswer n s).1 = .err
        ∨ ∃ b bs, (rxAnswer n s).1 = .bytes (b :: bs) ∧ (b :: bs).length ≤ n)
      ∧ (rxAnswer n s).2.env.rxScript = [] ∧ ∃ k', (rxAnswer n s).2.env.rxEndless = some k' := by
  obtain ⟨m, rfl⟩ := Nat.exists_eq_succ_of_ne_zero hn.ne'
  unfold rxAnswer
  rw [hs]
  by_cases he : s.env.rxErr = true
  · simp [he, hs, hk]
  · cases hq : s.env.rxQueue with
    | nil => rcases endlessAnswer_cases k hn with h | ⟨b, h⟩ <;> simp [he, hs, hk, h]
    | cons b bs => simp [he, hs, hk]

theorem read1_same {s t : State} {r : ReadResult} (h : read1 s = (r, t)) : SameBlock s t := by
  have k := rxAnswer_same 1 s
  obtain ⟨-, rfl⟩ := Prod.mk.injEq .. ▸ h
  exact ⟨k.blk, k.cfg, k.resetCfg, k.result, k.draws, k.polling, k.inputs, k.callback⟩

theorem discard_same {s t : State} {r : DiscardResult} (h : Machine.discard s = (r, t)) :
    SameBlock s t := by
  have k := rxAnswer_same s.cfg.discardMax s
  obtain ⟨-, rfl⟩ := Prod.mk.injEq .. ▸ h
  exact ⟨k.blk, k.cfg, k.resetCfg, k.result, k.draws, k.polling, k.inputs, k.callback⟩

theorem write_same {bs : List Byte} {s t : State} {r : WriteResult} (h : write bs s = (r, t)) :
    SameBlock s t := by
  unfold write at h
  split at h
  · cases h; exact ⟨rfl, rfl, rfl, rfl, rfl, rfl, rfl, rfl⟩
  · split at h <;> cases h <;> exact ⟨rfl, rfl, rfl, rfl, rfl, rfl, rfl, rfl⟩

/-- An accepted write puts exactly the bytes accepted on the wire. -/
theorem write_accepted_wire {bs : List Byte} {s t : State} {k : Nat}
    (h : write bs s = (.accepted k, t)) :
    k ≤ bs.length ∧ t.env.wire = s.env.wire ++ bs.take k := by
  unfold write at h
  split at h
  · rename_i a rest _
    cases a with
    | err => simp at h
    | accepted j =>
      by_cases hj : j ≤ bs.length
      · simp only [if_pos hj, Prod.mk.injEq, WriteResult.accepted.injEq] at h
        obtain ⟨rfl, rfl⟩ := h
        exact ⟨hj, by simp [Env.wire, Call.wire]⟩
      · simp [if_neg hj] at h
  · split at h
    · simp at h
    · simp only [Prod.mk.injEq, WriteResult.accepted.injEq] at h
      obtain ⟨rfl, rfl⟩ := h
      exact ⟨Nat.le_refl _, by simp [Env.wire, Call.wire]⟩

theorem writeComplete_same {s t : State} {b : Bool} (h : writeComplete s = (b, t)) :
    SameBlock s t := by
  unfold writeComplete at h
  split at h <;> cases h <;> exact ⟨rfl, rfl, rfl, rfl, rfl, rfl, rfl, rfl⟩

theorem sampled_same (s : State) : SameBlock s s.sampled := ticks_same s

theorem now_lt (s : State) : s.now < s.cfg.tickModulus := ticks_lt s

@[simp] theorem txEnable_blk (level : Bool) (s : State) :
    (txEnable level s).blk = { s.blk with txen := level } := rfl

@[simp] theorem txEnable_cfg (level : Bool) (s : State) : (txEnable level s).cfg = s.cfg := rfl

@[simp] theorem abandon_blk (s t : State) : (abandon s t).blk = { s.blk with refused := true } := rfl

@[simp] theorem abandon_cfg (s t : State) : (abandon s t).cfg = s.cfg := rfl

/-! ### Status -/

/-- A status update writes `S.stat` and the record of calls, nothing else. -/
theorem statusUpdate_only (s : State) :
    ∃ st calls, statusUpdate s
      = (s.setBlk { s.blk with stat := st }).setEnv { s.env with calls := calls } := by
  unfold statusUpdate
  split
  · exact ⟨_, _, rfl⟩
  · exact ⟨s.blk.stat, s.env.calls, rfl⟩

@[simp] theorem statusUpdate_st (s : State) : (statusUpdate s).blk.st = s.blk.st := by
  obtain ⟨_, _, h⟩ := statusUpdate_only s; rw [h]; rfl

@[simp] theorem statusUpdate_cfg (s : State) : (statusUpdate s).cfg = s.cfg := by
  obtain ⟨_, _, h⟩ := statusUpdate_only s; rw [h]; rfl

@[simp] theorem statusUpdate_buf (s : State) : (statusUpdate s).blk.buf = s.blk.buf := by
  obtain ⟨_, _, h⟩ := statusUpdate_only s; rw [h]; rfl

@[simp] theorem statusUpdate_len (s : State) : (statusUpdate s).blk.len = s.blk.len := by
  obtain ⟨_, _, h⟩ := statusUpdate_only s; rw [h]; rfl

@[simp] theorem statusUpdate_draws (s : State) : (statusUpdate s).draws = s.draws := by
  obtain ⟨_, _, h⟩ := statusUpdate_only s; rw [h]; rfl

/-- A status update puts nothing on the wire. -/
@[simp] theorem statusUpdate_wire (s : State) : (statusUpdate s).env.wire = s.env.wire := by
  unfold statusUpdate
  split
  · simp [Env.wire, Call.wire]
  · rfl

/-- The end of a command is a status update or nothing. -/
theorem endCommand_cases (s t : State) : endCommand s t = t ∨ endCommand s t = statusUpdate t := by
  unfold endCommand; split
  · exact .inl rfl
  · exact .inr rfl

/-! ### The commands the host and the dispatcher share -/

/-- BEGIN_SEND moves IDLE and FRAME_READY to QUEUE, or changes nothing. -/
theorem beginSend_cases (s : State) :
    (beginSend s = (true, statusUpdate (s.goto .queue))
        ∧ (s.blk.st = .idle ∨ s.blk.st = .frameReady))
      ∨ (beginSend s = (true, s) ∧ s.blk.st = .collision)
      ∨ (beginSend s = (false, s) ∧ s.blk.st ≠ .idle ∧ s.blk.st ≠ .frameReady
          ∧ s.blk.st ≠ .collision) := by
  cases h : s.blk.st <;> simp [beginSend, h, endCommand]

/-- What SEND does: transmit, abort, fail, nothing, or refuse. -/
theorem sendFrame_cases (s : State) :
    (s.blk.st = .queue ∧ s.blk.len < s.cfg.bufferMax
        ∧ sendFrame s = endCommand s (startTransmit s))
      ∨ (s.blk.st = .queue ∧ s.cfg.bufferMax ≤ s.blk.len
        ∧ sendFrame s = endCommand s (s.goto .exception))
      ∨ (s.blk.st = .collision ∧ sendFrame s = endCommand s (leaveCollision s))
      ∨ (s.blk.st = .exception ∧ sendFrame s = s)
      ∨ (s.blk.st ≠ .queue ∧ s.blk.st ≠ .collision ∧ s.blk.st ≠ .exception
        ∧ sendFrame s = s.markRefused) := by
  cases h : s.blk.st <;> simp [sendFrame, h, raiseFatal]
  by_cases hl : s.cfg.bufferMax ≤ s.blk.len <;> simp [hl, Nat.lt_of_not_le]

/-- What FINISHED does: release, abort, nothing, or refuse. -/
theorem finish_cases (s : State) :
    ((s.blk.st = .frameReady ∨ s.blk.st = .queue)
        ∧ finish s = endCommand s (s.goto .idle))
      ∨ (s.blk.st = .collision ∧ finish s = endCommand s (leaveCollision s))
      ∨ (s.blk.st = .exception ∧ finish s = s)
      ∨ (s.blk.st ≠ .frameReady ∧ s.blk.st ≠ .queue ∧ s.blk.st ≠ .collision
        ∧ s.blk.st ≠ .exception ∧ finish s = s.markRefused) := by
  cases h : s.blk.st <;> simp [finish, h]

/-- SETUP is refused or writes the baud rate and the thresholds of the mode. -/
theorem setupBaud_cases (baud : Nat) (s : State) :
    setupBaud baud s = s.markRefused
      ∨ (baud ≠ 0 ∧ constantsFit s.cfg baud = true ∧ s.cfg.mode = .rtu
        ∧ setupBaud baud s = s.setBlk { s.blk with
            baud := baud, t15 := deriveT15 s.cfg baud, t35 := deriveT35 s.cfg baud })
      ∨ (baud ≠ 0 ∧ constantsFit s.cfg baud = true ∧ s.cfg.mode = .ascii
        ∧ setupBaud baud s = s.setBlk { s.blk with baud := baud, t1s := deriveT1s s.cfg }) := by
  unfold setupBaud
  by_cases h0 : baud = 0
  · simp [h0]
  · by_cases hf : constantsFit s.cfg baud = true
    · cases hm : s.cfg.mode <;> simp [h0, hf]
    · simp [h0, hf]

/-- RESET is refused or constructs the block anew. -/
theorem construct_cases (s : State) :
    (Config.valid s.resetCfg = false ∧ construct s = s.markRefused)
      ∨ (Config.valid s.resetCfg = true
        ∧ construct s = (State.sampled { s with cfg := s.resetCfg }).setBlk
            (Block.afterReset s.resetCfg s.blk (State.now { s with cfg := s.resetCfg }))) := by
  unfold construct
  by_cases h : Config.valid s.resetCfg = true
  · right; exact ⟨h, by rw [if_pos h]; rfl⟩
  · left; exact ⟨by simpa using h, by rw [if_neg h]; rfl⟩

/-! ### The handler and the dispatcher -/

/-- A handler call leaves the block and the configuration alone. -/
theorem callHandler_blk (c : HandlerCall) (s : State) :
    (callHandler c s).2.blk = s.blk ∧ (callHandler c s).2.cfg = s.cfg
      ∧ (callHandler c s).2.resetCfg = s.resetCfg ∧ (callHandler c s).2.result = s.result
      ∧ (callHandler c s).2.polling = s.polling := by
  have h : ∀ c, (agentAnswer c s).2.blk = s.blk ∧ (agentAnswer c s).2.cfg = s.cfg
      ∧ (agentAnswer c s).2.resetCfg = s.resetCfg ∧ (agentAnswer c s).2.result = s.result
      ∧ (agentAnswer c s).2.polling = s.polling := by
    intro c; unfold agentAnswer; split <;> exact ⟨rfl, rfl, rfl, rfl, rfl⟩
  unfold callHandler
  split
  · exact ⟨rfl, rfl, rfl, rfl, rfl⟩
  · split
    · exact h _
    · split
      · exact h _
      · exact ⟨rfl, rfl, rfl, rfl, rfl⟩

/-- What serving a request does: refuse, abandon, or hand the buffer back. -/
theorem serve_cases (fc : Byte) (body : State → Option Byte × State) (s : State) :
    (serve fc body s = s.markRefused ∧ s.blk.st ≠ .frameReady ∧ s.blk.st ≠ .collision)
      ∨ ((s.blk.st = .frameReady ∨ s.blk.st = .collision)
        ∧ ((∃ u, body (beginSend s).2 = (none, u) ∧ serve fc body s = abandon s u)
          ∨ ∃ exc u, body (beginSend s).2 = (some exc, u) ∧ serve fc body s = handBack fc exc u)) := by
  cases h : s.blk.st
  case frameReady =>
    right; refine ⟨.inl rfl, ?_⟩
    rcases hb : body (beginSend s).2 with ⟨r, u⟩
    simp only [beginSend, h] at hb
    cases r with
    | none => left; exact ⟨u, rfl, by simp [serve, h, beginSend, hb]⟩
    | some exc => right; exact ⟨exc, u, rfl, by simp [serve, h, beginSend, hb]⟩
  case collision =>
    right; refine ⟨.inr rfl, ?_⟩
    rcases hb : body (beginSend s).2 with ⟨r, u⟩
    simp only [beginSend, h] at hb
    cases r with
    | none => left; exact ⟨u, rfl, by simp [serve, h, beginSend, hb]⟩
    | some exc => right; exact ⟨exc, u, rfl, by simp [serve, h, beginSend, hb]⟩
  all_goals left; simp [serve, h]

/-! ### Micro-steps and POLL -/

/-- A micro-step is its state's rule after one clock sample; a refused answer abandons it. -/
theorem microStep_eq (s : State) :
    microStep s = match stepState s.now s.sampled with
      | (.refused, t) => (.refused, abandon s t)
      | (.again, t) => (.again, statusUpdate t)
      | (.done d, t) => (.done d, statusUpdate t) := rfl

theorem pollLoop_again {s t : State} (n : Nat) (h : microStep s = (.again, t)) :
    pollLoop (n + 1) s = pollLoop n t := by
  rw [pollLoop, h]

theorem pollLoop_done {s t : State} {d : Nat} (n : Nat) (h : microStep s = (.done d, t)) :
    pollLoop (n + 1) s = endPoll d t := by
  rw [pollLoop, h]

theorem pollLoop_refused {s t : State} (n : Nat) (h : microStep s = (.refused, t)) :
    pollLoop (n + 1) s = leavePoll t := by
  rw [pollLoop, h]

/-- What the loop does with `n` micro-steps: all of them answer `continue` and it is where they lead, or
the first that does not ends it. -/
theorem pollLoop_cases (n : Nat) (s : State) :
    ∃ k, k ≤ n ∧ (∀ j, j < k → (microStep (microSteps j s)).1 = .again)
      ∧ ((k = n ∧ pollLoop n s = microSteps n s)
        ∨ (∃ d t, microStep (microSteps k s) = (.done d, t) ∧ pollLoop n s = endPoll d t)
        ∨ ∃ t, microStep (microSteps k s) = (.refused, t) ∧ pollLoop n s = leavePoll t) := by
  induction n generalizing s with
  | zero => exact ⟨0, Nat.le_refl 0, by omega, .inl ⟨rfl, rfl⟩⟩
  | succ n ih =>
    rcases h : microStep s with ⟨a, t⟩
    cases a with
    | done d => exact ⟨0, by omega, by omega, .inr (.inl ⟨d, t, h, pollLoop_done n h⟩)⟩
    | refused => exact ⟨0, by omega, by omega, .inr (.inr ⟨t, h, pollLoop_refused n h⟩)⟩
    | again =>
      have e : ∀ j, microSteps (j + 1) s = microSteps j t := fun j => by rw [microSteps, h]
      obtain ⟨k, hk, hj, hc⟩ := ih t
      refine ⟨k + 1, by omega, ?_, ?_⟩
      · intro j hlt
        cases j with
        | zero => rw [microSteps, h]
        | succ j => rw [e]; exact hj j (by omega)
      · rw [e, e, pollLoop_again n h]
        exact hc.imp_left fun ⟨a, b⟩ => ⟨by omega, b⟩

/-! ### Arrivals -/

/-- The row of any character is its arrival. -/
theorem exec_classify (c : Byte) (s : State) : exec (classify c) s = .next (arrive c s) := by
  unfold classify
  repeat' split
  all_goals simp_all [exec, execAsciiColon, execAsciiCr, execAsciiLf, execAsciiHexDigit09,
    execAsciiHexDigitUpper, execAsciiHexDigitLower, execAsciiOther]

/-- Bytes that arrive in order are their rows executed in order. -/
theorem foldl_exec_classify (bs : List Byte) (s : State) :
    bs.foldl (fun u c => stateOf u (exec (classify c) u)) s = arriveAll bs s := by
  induction bs generalizing s with
  | nil => rfl
  | cons b bs ih => rw [List.foldl_cons, ih, exec_classify, stateOf, arriveAll]

end Sys2Proof.Machine
end

