-- ==== Sys2Proof/Laws/PerInstr.lean ====
section
/-! SUPPORT. Facts that hold of every instruction as syntax, one lemma per constructor. -/

namespace Sys2Proof.Laws.FirstByte

/-- The encoding begins with a byte: the row's selector, or the first byte of its frame. -/
def Statement (i : Instr) : Prop := ∃ b rest, encode i = b :: rest

theorem reset : Statement .reset := ⟨_, _, rfl⟩
theorem poll : Statement .poll := ⟨_, _, rfl⟩
theorem beginSend : Statement .beginSend := ⟨_, _, rfl⟩
theorem send : Statement .send := ⟨_, _, rfl⟩
theorem finished : Statement .finished := ⟨_, _, rfl⟩
theorem stationAddress : Statement .stationAddress := ⟨_, _, rfl⟩
theorem setStationAddress (addr : Byte) : Statement (.setStationAddress addr) := ⟨_, _, rfl⟩
theorem frameReady : Statement .frameReady := ⟨_, _, rfl⟩
theorem frameAddress : Statement .frameAddress := ⟨_, _, rfl⟩
theorem setFrameAddress (addr : Byte) : Statement (.setFrameAddress addr) := ⟨_, _, rfl⟩
theorem bufferRead (i : U16) : Statement (.bufferRead i) := ⟨_, _, rfl⟩
theorem bufferWrite (i : U16) (v : Byte) : Statement (.bufferWrite i v) := ⟨_, _, rfl⟩
theorem bufferLen : Statement .bufferLen := ⟨_, _, rfl⟩
theorem setBufferLen (n : U16) : Statement (.setBufferLen n) := ⟨_, _, rfl⟩
theorem bufferMax : Statement .bufferMax := ⟨_, _, rfl⟩
theorem setup (baud : U32) : Statement (.setup baud) := ⟨_, _, rfl⟩
theorem crc16Update (acc : U16) (bytes : List Byte) : Statement (.crc16Update acc bytes) := ⟨_, _, rfl⟩
theorem crc16 (bytes : List Byte) : Statement (.crc16 bytes) := ⟨_, _, rfl⟩
theorem lrcUpdate (acc : Byte) (bytes : List Byte) : Statement (.lrcUpdate acc bytes) := ⟨_, _, rfl⟩
theorem lrc (bytes : List Byte) : Statement (.lrc bytes) := ⟨_, _, rfl⟩
theorem dispatch : Statement .dispatch := ⟨_, _, rfl⟩
theorem reservedCommand (c : Byte) : Statement (.reservedCommand c) := ⟨_, _, rfl⟩
theorem readCoils (data : List Byte) : Statement (.readCoils data) := ⟨_, _, rfl⟩
theorem readDiscreteInputs (data : List Byte) : Statement (.readDiscreteInputs data) := ⟨_, _, rfl⟩
theorem readHoldingRegisters (data : List Byte) : Statement (.readHoldingRegisters data) := ⟨_, _, rfl⟩
theorem readInputRegisters (data : List Byte) : Statement (.readInputRegisters data) := ⟨_, _, rfl⟩
theorem writeSingleCoil (data : List Byte) : Statement (.writeSingleCoil data) := ⟨_, _, rfl⟩
theorem writeSingleRegister (data : List Byte) : Statement (.writeSingleRegister data) := ⟨_, _, rfl⟩
theorem writeMultipleCoils (data : List Byte) : Statement (.writeMultipleCoils data) := ⟨_, _, rfl⟩
theorem writeMultipleRegisters (data : List Byte) : Statement (.writeMultipleRegisters data) := ⟨_, _, rfl⟩
theorem illegalFunction (fc : Byte) (data : List Byte) : Statement (.illegalFunction fc data) := ⟨_, _, rfl⟩
theorem exceptionResponse (fc code : Byte) : Statement (.exceptionResponse fc code) := ⟨_, _, rfl⟩
theorem rtuFrame (address : Byte) (pdu : List Byte) (crcLo crcHi : Byte) : Statement (.rtuFrame address pdu crcLo crcHi) := ⟨_, _, rfl⟩
theorem asciiFrame (address : Byte) (pdu : List Byte) (lrc : Byte) : Statement (.asciiFrame address pdu lrc) := ⟨_, _, rfl⟩
theorem asciiColon : Statement .asciiColon := ⟨_, _, rfl⟩
theorem asciiCr : Statement .asciiCr := ⟨_, _, rfl⟩
theorem asciiLf : Statement .asciiLf := ⟨_, _, rfl⟩
theorem asciiHexDigit09 (c : Byte) : Statement (.asciiHexDigit09 c) := ⟨_, _, rfl⟩
theorem asciiHexDigitUpper (c : Byte) : Statement (.asciiHexDigitUpper c) := ⟨_, _, rfl⟩
theorem asciiHexDigitLower (c : Byte) : Statement (.asciiHexDigitLower c) := ⟨_, _, rfl⟩
theorem asciiOther (c : Byte) : Statement (.asciiOther c) := ⟨_, _, rfl⟩

end Sys2Proof.Laws.FirstByte
end

