-- ==== Sys2Proof/Tests/Slice0.lean ====
section
/-! SUPPORT. Checks of the model's own work: ill-formed terms, words written out from the spec's
encodings, the spec's worked values, single steps, and a state that meets the hypotheses of each
statement. Expected values are the spec's (95_test_vectors.md and the examples of the rules cited). -/

namespace Sys2Proof.Tests

open Sys2Proof Sys2Proof.Machine

/-! ### Helpers -/

/-- The vector configuration with no frame-ready handler. -/
def cfgOf (m : Mode) : Config := { Config.vector m with dispatcherAttached := false }

/-- A state of a mode, with the vector's thresholds. -/
def inState (m : Mode) (x : St) : State :=
  { State.reset with
    cfg := cfgOf m
    blk := { State.reset.blk with st := x, t1s := 10000, txen := x.txActive } }

/-- The stream's next answer to `Read` or `Discard`. -/
def hears (a : RxAnswer) (s : State) : State := s.setEnv { s.env with rxScript := [a] }

/-- The receive stream never pauses. -/
def endless (s : State) : State := s.setEnv { s.env with rxEndless := some 0 }

/-- The stream's next answer to `Write`. -/
def accepts (a : WrAnswer) (s : State) : State := s.setEnv { s.env with wrScript := [a] }

/-- The clock shows `t`. -/
def atTick (t : Nat) (s : State) : State := s.setEnv { s.env with now := t }

/-- The handler's next answer. -/
def answers (a : HandlerAnswer) (s : State) : State := s.setEnv { s.env with handlerScript := [a] }

/-- A PDU in the buffer. -/
def holding (pdu : List Byte) (s : State) : State := (s.writeBuf 0 pdu).setLen pdu.length

/-- One input before the block. -/
def given (x : Input) (s : State) : State := s.setEnv { s.env with inputs := [x] }

/-- A field of the next state. -/
def field {α : Type} (o : Host.Outcome State Fault Refusal) (f : State → α) : Option α :=
  match o with
  | .next t => some (f t)
  | .fault _ => none
  | .refused _ => none

/-! ### Ill-formed terms are refused -/

theorem test_wf_length_field :
    (Instr.crc16 (List.replicate 65536 0#8)).wellFormed = false
      ∧ (Instr.lrcUpdate 0#8 (List.replicate 65536 0#8)).wellFormed = false := by
  constructor <;> (simp only [Instr.wellFormed, fitsLengthField, List.length_replicate]; decide)
theorem test_wf_reserved : (Instr.reservedCommand 0x14#8).wellFormed = false := by decide
theorem test_wf_pdu : (Instr.readCoils (List.replicate 257 0#8)).wellFormed = false := by
  simp only [Instr.wellFormed, fitsPdu, List.length_replicate]; decide
theorem test_wf_illegal : (Instr.illegalFunction 0x10#8 []).wellFormed = false := by decide
theorem test_wf_response :
    (Instr.exceptionResponse 0x03#8 0x01#8).wellFormed = false
      ∧ (Instr.exceptionResponse 0x83#8 0x00#8).wellFormed = false := by decide
theorem test_wf_frames :
    (Instr.rtuFrame 0#8 (List.replicate 257 0#8) 0#8 0#8).wellFormed = false
      ∧ (Instr.asciiFrame 0#8 (List.replicate 257 0#8) 0#8).wellFormed = false := by
  constructor <;> (simp only [Instr.wellFormed, List.length_replicate]; decide)
theorem test_wf_digits :
    (Instr.asciiHexDigit09 0x3A#8).wellFormed = false
      ∧ (Instr.asciiHexDigitUpper 0x47#8).wellFormed = false
      ∧ (Instr.asciiHexDigitLower 0x60#8).wellFormed = false
      ∧ (Instr.asciiOther 0x41#8).wellFormed = false
      ∧ (Instr.asciiOther 0x0A#8).wellFormed = false := by decide

/-! ### Words written out from 30_encoding.md -/

theorem test_decode_no_operand :
    [0x00, 0x01, 0x02, 0x03, 0x04, 0x05, 0x07, 0x08, 0x0C, 0x0E, 0x14].map
        (fun c => decodeCommand [BitVec.ofNat 8 c])
      = [.ok .reset, .ok .poll, .ok .beginSend, .ok .send, .ok .finished, .ok .stationAddress,
          .ok .frameReady, .ok .frameAddress, .ok .bufferLen, .ok .bufferMax, .ok .dispatch] := by
  decide
theorem test_decode_set_station : decodeCommand [0x06#8, 0x01#8] = .ok (.setStationAddress 0x01#8) := by
  decide
theorem test_decode_set_frame_address :
    decodeCommand [0x09#8, 0x02#8] = .ok (.setFrameAddress 0x02#8) := by decide
theorem test_decode_buffer_read :
    decodeCommand [0x0A#8, 0x01#8, 0x00#8] = .ok (.bufferRead 0x0100#16) := by decide
theorem test_decode_buffer_write :
    decodeCommand [0x0B#8, 0x00#8, 0x05#8, 0x7E#8] = .ok (.bufferWrite 0x0005#16 0x7E#8) := by decide
theorem test_decode_set_buffer_len :
    decodeCommand [0x0D#8, 0x01#8, 0x00#8] = .ok (.setBufferLen 0x0100#16) := by decide
theorem test_decode_setup :
    decodeCommand [0x0F#8, 0x00#8, 0x00#8, 0x25#8, 0x80#8] = .ok (.setup 9600#32) := by decide
theorem test_decode_crc :
    decodeCommand [0x10#8, 0x81#8, 0x3E#8, 0x00#8, 0x01#8, 0x07#8]
        = .ok (.crc16Update 0x813E#16 [0x07#8])
      ∧ decodeCommand [0x11#8, 0x00#8, 0x02#8, 0x02#8, 0x07#8]
        = .ok (.crc16 [0x02#8, 0x07#8]) := by decide
theorem test_decode_lrc :
    decodeCommand [0x12#8, 0xFF#8, 0x00#8, 0x01#8, 0x01#8] = .ok (.lrcUpdate 0xFF#8 [0x01#8])
      ∧ decodeCommand [0x13#8, 0x00#8, 0x00#8] = .ok (.lrc []) := by decide
theorem test_decode_reserved :
    decodeCommand [0x15#8] = .ok (.reservedCommand 0x15#8)
      ∧ decodeCommand [0xFF#8] = .ok (.reservedCommand 0xFF#8) := by decide
theorem test_decode_refused :
    decodeCommand [] = .error .emptyWord ∧ decodeCommand [0x0B#8, 0x00#8, 0x05#8] = .error .tooShort
      ∧ decodeCommand [0x11#8, 0x00#8, 0x02#8, 0x02#8] = .error .tooShort
      ∧ decodeCommand [0x01#8, 0x00#8] = .error .trailingBytes := by decide
theorem test_decode_requests :
    [0x01, 0x02, 0x03, 0x04, 0x05, 0x06, 0x0F, 0x10, 0x07, 0x83].map
        (fun c => decodeRequest [BitVec.ofNat 8 c, 0xAA#8])
      = [.ok (.readCoils [0xAA#8]), .ok (.readDiscreteInputs [0xAA#8]),
          .ok (.readHoldingRegisters [0xAA#8]), .ok (.readInputRegisters [0xAA#8]),
          .ok (.writeSingleCoil [0xAA#8]), .ok (.writeSingleRegister [0xAA#8]),
          .ok (.writeMultipleCoils [0xAA#8]), .ok (.writeMultipleRegisters [0xAA#8]),
          .ok (.illegalFunction 0x07#8 [0xAA#8]), .ok (.illegalFunction 0x83#8 [0xAA#8])] := by decide
theorem test_decode_response :
    decodeResponse [0x83#8, 0x01#8] = .ok (.exceptionResponse 0x83#8 0x01#8)
      ∧ decodeResponse [0x03#8, 0x01#8] = .error .notAnExceptionResponse := by decide
theorem test_decode_rtu_frame :
    decodeRtuFrame [0x02#8, 0x07#8, 0x41#8, 0x12#8] = .ok (.rtuFrame 0x02#8 [0x07#8] 0x41#8 0x12#8)
      ∧ decodeRtuFrame [0x01#8, 0x7E#8] = .error .tooShort := by decide
/-- The source's Scenario C frame, `:1103006B00037E` CR LF. -/
theorem test_decode_ascii_frame :
    decodeAsciiFrame
        [0x3A#8, 0x31#8, 0x31#8, 0x30#8, 0x33#8, 0x30#8, 0x30#8, 0x36#8, 0x42#8, 0x30#8, 0x30#8,
          0x30#8, 0x33#8, 0x37#8, 0x45#8, 0x0D#8, 0x0A#8]
      = .ok (.asciiFrame 0x11#8 [0x03#8, 0x00#8, 0x6B#8, 0x00#8, 0x03#8] 0x7E#8) := by decide
theorem test_decode_characters :
    [0x3A, 0x0D, 0x0A, 0x30, 0x39, 0x41, 0x46, 0x61, 0x66, 0x47, 0x60].map
        (fun c => decodeCharacter [BitVec.ofNat 8 c])
      = [.ok .asciiColon, .ok .asciiCr, .ok .asciiLf, .ok (.asciiHexDigit09 0x30#8),
          .ok (.asciiHexDigit09 0x39#8), .ok (.asciiHexDigitUpper 0x41#8),
          .ok (.asciiHexDigitUpper 0x46#8), .ok (.asciiHexDigitLower 0x61#8),
          .ok (.asciiHexDigitLower 0x66#8), .ok (.asciiOther 0x47#8), .ok (.asciiOther 0x60#8)] := by
  decide

/-! ### Values the rules give -/

theorem test_crc_byte :
    crcByte 0x0000#16 0x00#8 = 0x0000#16 ∧ crcByte 0xFFFF#16 0x00#8 = 0x40BF#16
      ∧ crcByte 0x0000#16 0x80#8 = 0xA001#16 ∧ crcByte 0xFFFF#16 0xFF#8 = 0x00FF#16
      ∧ crcByte 0xFFFF#16 0x02#8 = 0x813E#16 ∧ crcByte 0x813E#16 0x07#8 = 0x1241#16 := by decide
set_option maxRecDepth 4000 in
theorem test_crc16 :
    crc16 [0x31#8, 0x32#8, 0x33#8, 0x34#8, 0x35#8, 0x36#8, 0x37#8, 0x38#8, 0x39#8] = 0x4B37#16
      ∧ crc16 [0x02#8, 0x87#8, 0x01#8] = 0x3072#16 := by decide
theorem test_lrc :
    lrcUpdate 0#8 [0x11#8, 0x03#8, 0x00#8, 0x6B#8, 0x00#8, 0x03#8] = 0x82#8
      ∧ lrc [0x11#8, 0x03#8, 0x00#8, 0x6B#8, 0x00#8, 0x03#8] = 0x7E#8 ∧ lrc [] = 0x00#8
      ∧ lrc [0x80#8] = 0x80#8 ∧ lrc [0x01#8] = 0xFF#8 := by decide
theorem test_hex2 : hex2 0x6B#8 = [0x36#8, 0x42#8] := by decide
theorem test_elapsed :
    elapsed (Config.vector .rtu) 65535 0 = 1 ∧ elapsed (Config.vector .rtu) 7 7 = 0 := by decide
/-- The table of R471. -/
theorem test_thresholds :
    [1200, 2400, 4800, 9600, 19200, 38400].map (fun b => (deriveT35 (Config.vector .rtu) b,
        deriveT15 (Config.vector .rtu) b))
      = [(320, 137), (160, 68), (80, 34), (40, 17), (20, 8), (17, 7)]
      ∧ deriveT1s (Config.vector .ascii) = 10000 := by decide

/-! ### Single steps -/

theorem test_reset :
    field (exec .reset (atTick 7 (inState .ascii .exception)))
        (fun t => (t.blk.st, t.blk.t35, t.blk.t15, t.blk.tRef))
      = some (.dump, 40, 17, 7) := by decide
/-- R251's example: POLL at tick 0 returns 40; at tick 40 it enters IDLE and returns 0. -/
theorem test_poll_dump :
    field (exec .poll (inState .rtu .dump)) (fun t => (t.blk.st, t.result))
        = some (.dump, .deadline 40)
      ∧ field (exec .poll (atTick 40 (inState .rtu .dump))) (fun t => (t.blk.st, t.result))
        = some (.idle, .deadline 0) := by decide
theorem test_begin_send :
    field (exec .beginSend (inState .rtu .frameReady)) (fun t => (t.blk.st, t.result))
        = some (.queue, .bool true)
      ∧ field (exec .beginSend (inState .rtu .dump)) (fun t => (t.blk.st, t.result))
        = some (.dump, .bool false) := by decide
theorem test_send :
    field (exec .send (inState .ascii .queue)) (fun t => (t.blk.st, t.blk.txen, t.env.wire))
        = some (.txStart, true, [])
      ∧ field (exec .send ((inState .rtu .queue).setLen 256)) (fun t => (t.blk.st, t.env.calls))
        = some (.exception, []) := by decide
theorem test_finished :
    field (exec .finished (inState .rtu .frameReady)) (fun t => t.blk.st) = some .idle
      ∧ field (exec .finished (atTick 9 (inState .rtu .collision))) (fun t => (t.blk.st, t.blk.tRef))
        = some (.dump, 9) := by decide
theorem test_station_address :
    field (exec (.setStationAddress 0x11#8) (inState .rtu .idle)) (fun t => t.blk.station)
        = some 0x11#8
      ∧ field (exec .stationAddress (inState .rtu .idle)) (fun t => t.result)
        = some (.u8 0x00#8) := by decide
theorem test_frame_ready :
    field (exec .frameReady (inState .rtu .frameReady)) (fun t => t.result) = some (.bool true)
      ∧ field (exec .frameReady (inState .rtu .exception)) (fun t => t.result)
        = some (.bool false) := by decide
theorem test_frame_address :
    field (exec (.setFrameAddress 0x02#8) (inState .rtu .queue)) (fun t => t.blk.faddr)
        = some 0x02#8
      ∧ field (exec (.setFrameAddress 0x02#8) (inState .rtu .frameReady))
          (fun t => (t.blk.faddr, t.blk.refused)) = some (0x00#8, true) := by decide
theorem test_buffer_write :
    field (exec (.bufferWrite 0x00FF#16 0x7E#8) (inState .rtu .queue))
        (fun t => (Memory.read t.blk.buf 255, t.blk.refused)) = some (some 0x7E#8, false)
      ∧ field (exec (.bufferWrite 0x0100#16 0x7E#8) (inState .rtu .queue))
        (fun t => (t.blk.buf, t.blk.refused)) = some ([], true) := by decide
theorem test_buffer_read :
    field (exec (.bufferRead 0x0000#16) (holding [0x07#8] (inState .rtu .frameReady)))
      (fun t => t.result) = some (.u8 0x07#8) := by decide
theorem test_buffer_len :
    field (exec .bufferLen (holding [0x07#8] (inState .rtu .frameReady))) (fun t => t.result)
        = some (.u16 0x0001#16)
      ∧ field (exec (.setBufferLen 0x0100#16) (inState .rtu .queue)) (fun t => t.blk.len)
        = some 256 := by decide
theorem test_buffer_max :
    field (exec .bufferMax (inState .rtu .dump)) (fun t => t.result) = some (.u16 0x0100#16) := by
  decide
theorem test_setup :
    field (exec (.setup 19200#32) (inState .rtu .idle)) (fun t => (t.blk.t35, t.blk.t15))
        = some (20, 8)
      ∧ field (exec (.setup 0#32) (inState .rtu .idle)) (fun t => (t.blk.baud, t.blk.refused))
        = some (9600, true) := by decide
set_option maxRecDepth 8000 in
theorem test_checksum_commands :
    field (exec (.crc16Update 0x813E#16 [0x07#8]) State.reset) (fun t => t.result)
        = some (.u16 0x1241#16)
      ∧ field (exec (.crc16 [0x02#8, 0x07#8]) State.reset) (fun t => t.result)
        = some (.u16 0x1241#16)
      ∧ field (exec (.lrcUpdate 0xFF#8 [0x01#8]) State.reset) (fun t => t.result)
        = some (.u8 0x00#8)
      ∧ field (exec (.lrc [0x11#8, 0x03#8, 0x00#8, 0x6B#8, 0x00#8, 0x03#8]) State.reset)
          (fun t => t.result) = some (.u8 0x7E#8) := by decide
/-- R357's example: `[0x07]` gives `[0x87, 0x01]`. -/
theorem test_dispatch_illegal :
    field (exec .dispatch (holding [0x07#8] (inState .rtu .frameReady)))
      (fun t => (t.blk.st, t.pdu)) = some (.txAddress, [0x87#8, 0x01#8]) := by decide
/-- The examples of R360 to R367. -/
theorem test_read_coils :
    field (exec (.readCoils [0x00#8, 0x13#8, 0x00#8, 0x0A#8])
        (answers ⟨0#8, [0xCD#8, 0x01#8], []⟩
          (holding [0x01#8, 0x00#8, 0x13#8, 0x00#8, 0x0A#8] (inState .rtu .frameReady))))
      (fun t => t.pdu) = some [0x01#8, 0x02#8, 0xCD#8, 0x01#8] := by decide
theorem test_read_discrete_inputs :
    field (exec (.readDiscreteInputs [0x00#8, 0xC4#8, 0x00#8, 0x16#8])
        (answers ⟨0#8, [0xAC#8, 0xDB#8, 0x35#8], []⟩
          (holding [0x02#8, 0x00#8, 0xC4#8, 0x00#8, 0x16#8] (inState .rtu .frameReady))))
      (fun t => t.pdu) = some [0x02#8, 0x03#8, 0xAC#8, 0xDB#8, 0x35#8] := by decide
theorem test_read_holding_registers :
    field (exec (.readHoldingRegisters [0x00#8, 0x6B#8, 0x00#8, 0x03#8])
        (answers ⟨0#8, [], [0xAE41#16, 0x5652#16, 0x4340#16]⟩
          (holding [0x03#8, 0x00#8, 0x6B#8, 0x00#8, 0x03#8] (inState .rtu .frameReady))))
      (fun t => t.pdu)
      = some [0x03#8, 0x06#8, 0xAE#8, 0x41#8, 0x56#8, 0x52#8, 0x43#8, 0x40#8] := by decide
theorem test_read_input_registers :
    field (exec (.readInputRegisters [0x00#8, 0x08#8, 0x00#8, 0x01#8])
        (answers ⟨0#8, [], [0x000A#16]⟩
          (holding [0x04#8, 0x00#8, 0x08#8, 0x00#8, 0x01#8] (inState .rtu .frameReady))))
      (fun t => t.pdu) = some [0x04#8, 0x02#8, 0x00#8, 0x0A#8] := by decide
theorem test_write_single_coil :
    field (exec (.writeSingleCoil [0x00#8, 0xAC#8, 0x12#8, 0x34#8])
        (holding [0x05#8, 0x00#8, 0xAC#8, 0x12#8, 0x34#8] (inState .rtu .frameReady)))
      (fun t => t.pdu) = some [0x85#8, 0x03#8] := by decide
theorem test_write_single_register :
    field (exec (.writeSingleRegister [0x00#8, 0x01#8, 0x00#8, 0x03#8])
        (answers ⟨0#8, [], []⟩
          (holding [0x06#8, 0x00#8, 0x01#8, 0x00#8, 0x03#8] (inState .rtu .frameReady))))
      (fun t => (t.pdu, t.env.calls.take 1))
      = some ([0x06#8, 0x00#8, 0x01#8, 0x00#8, 0x03#8],
          [.handler (.writeSingleRegister 0x0001#16 0x0003#16) ⟨0#8, [], []⟩]) := by decide
theorem test_write_multiple_coils :
    field (exec (.writeMultipleCoils [0x00#8, 0x13#8, 0x00#8, 0x0A#8, 0x02#8, 0xCD#8, 0x01#8])
        (answers ⟨0#8, [], []⟩
          (holding [0x0F#8, 0x00#8, 0x13#8, 0x00#8, 0x0A#8, 0x02#8, 0xCD#8, 0x01#8]
            (inState .rtu .frameReady))))
      (fun t => t.pdu) = some [0x0F#8, 0x00#8, 0x13#8, 0x00#8, 0x0A#8] := by decide
theorem test_write_multiple_registers :
    field (exec (.writeMultipleRegisters
          [0x00#8, 0x01#8, 0x00#8, 0x02#8, 0x04#8, 0x00#8, 0x0A#8, 0x01#8, 0x02#8])
        (answers ⟨0#8, [], []⟩ (inState .rtu .frameReady)))
      (fun t => t.env.calls.take 1)
      = some [.handler (.writeMultipleRegisters 0x0001#16 0x0002#16 [0x000A#16, 0x0102#16])
          ⟨0#8, [], []⟩] := by decide
theorem test_exception_response :
    field (exec (.exceptionResponse 0x83#8 0x01#8) (inState .rtu .queue)) (fun t => t.pdu)
      = some [0x83#8, 0x01#8] := by decide
set_option maxRecDepth 8000 in
/-- The source's Scenario A. -/
theorem test_rtu_frame :
    field (exec (.rtuFrame 0x02#8 [0x07#8] 0x41#8 0x12#8) (inState .rtu .idle))
      (fun t => (t.blk.st, t.blk.faddr, t.pdu)) = some (.frameReady, 0x02#8, [0x07#8]) := by decide
set_option maxRecDepth 8000 in
/-- The source's Scenario C. -/
theorem test_ascii_frame :
    field (exec (.asciiFrame 0x11#8 [0x03#8, 0x00#8, 0x6B#8, 0x00#8, 0x03#8] 0x7E#8)
        (inState .ascii .idle))
      (fun t => (t.blk.st, t.blk.faddr, t.pdu))
      = some (.frameReady, 0x11#8, [0x03#8, 0x00#8, 0x6B#8, 0x00#8, 0x03#8]) := by decide
theorem test_ascii_colon :
    field (exec .asciiColon (inState .ascii .rxLf)) (fun t => t.blk.st) = some .rxAddrHi := by decide
theorem test_ascii_cr :
    field (exec .asciiCr (inState .ascii .rxDataHi)) (fun t => t.blk.st) = some .rxLf
      ∧ field (exec .asciiCr (inState .ascii .rxDataLo)) (fun t => t.blk.st) = some .idle := by decide
theorem test_ascii_lf :
    field (exec .asciiLf (inState .ascii .rxLf)) (fun t => t.blk.st) = some .idle := by decide
theorem test_ascii_hex_digits :
    field (exec (.asciiHexDigit09 0x31#8) (inState .ascii .rxAddrHi)) (fun t => (t.blk.st, t.blk.nib))
        = some (.rxAddrLo, 1#4)
      ∧ field (exec (.asciiHexDigitUpper 0x41#8) (inState .ascii .rxAddrLo))
          (fun t => (t.blk.st, t.blk.faddr)) = some (.rxDataHi, 0x0A#8)
      ∧ field (exec (.asciiHexDigitLower 0x61#8) (inState .ascii .rxAddrLo))
          (fun t => (t.blk.st, t.blk.faddr)) = some (.rxDataHi, 0x0A#8) := by decide
theorem test_ascii_other :
    field (exec (.asciiOther 0x47#8) (inState .ascii .rxAddrLo)) (fun t => t.blk.st) = some .idle := by
  decide
theorem test_fetch :
    field (step (State.reset.withFetchWord 8 0x05)) (fun t => t.result) = some (.u8 0x00#8)
      ∧ decodeTableWord 8 0x0F = some (.setup 0#32) := by decide

/-- The Scenario C frame of 43_ascii_engine.md R324, as the string of an RXSTR statement (R146). -/
theorem test_rxstr : rxStr ":1103006B00037E\\r\\n" = rxAscii 0x11#8 [0x03#8, 0x00#8, 0x6B#8, 0x00#8, 0x03#8] := by
  decide

/-- R456: in RTU an endless stream never lets DUMP end, so the POLL is still running. -/
theorem test_endless_micro_step :
    (microStep (endless (inState .rtu .dump))).1 = .again := by
  cases h : Config.endlessItem 0 <;>
    simp [microStep, ticks, stepState, stepRtu, stepSilence, Machine.discard, rxAnswer, endlessAnswer, endless,
      inState, h, State.reset, Env.initial, State.setEnv, State.logCall, cfgOf, Config.vector,
      Config.discardMax]

/-- A valid empty frame has ended in RTU RECEIVE, and the callback issues RESET. -/
def resetsInCallback : State :=
  (inState .rtu .receive).setBlk
      { (inState .rtu .receive).blk with rxN := 2, crc := 0#16, txen := false }
    |>.setEnv { (inState .rtu .receive).env with now := 40, callback := [[[0x00#8]]] }

/-- R440, R457, R201: RESET clears `S.in_poll`, and the same POLL evaluates the state it leaves: DUMP, whose
silence has just begun, so the deadline is `T35`. -/
theorem test_callback_reset :
    (pollLoop 1 (enterPoll resetsInCallback)).polling = true
      ∧ (pollLoop 1 (enterPoll resetsInCallback)).blk.inPoll = false
      ∧ field (exec .poll resetsInCallback) (fun t => (t.blk.st, t.result, t.polling))
          = some (.dump, .deadline 40, false) := by decide

/-! ### States that meet the hypotheses of the statements

One theorem per statement with hypotheses, one conjunct per clause, at the ends of the clause's range. -/

theorem witness_DecodeEncode :
    (Instr.reservedCommand 0x15#8).wellFormed = true ∧ (Instr.bufferRead 0xFFFF#16).wellFormed = true
      ∧ (Instr.illegalFunction 0xFF#8 []).wellFormed = true
      ∧ (Instr.exceptionResponse 0x83#8 0x01#8).wellFormed = true
      ∧ (Instr.asciiFrame 0x11#8 [0x03#8] 0x7E#8).wellFormed = true := by decide
theorem witness_EncodeDecode :
    decode .command [0x06#8, 0x11#8] = .ok (.setStationAddress 0x11#8)
      ∧ decode .rtuFrame [0x02#8, 0x41#8, 0x12#8] = .ok (.rtuFrame 0x02#8 [] 0x41#8 0x12#8)
      ∧ decode .character [0x3A#8] = .ok .asciiColon := by decide
theorem witness_RefusedCommandWords :
    0x15 ≤ (0x15#8).toNat ∧ 0x15 ≤ (0xFF#8).toNat
      ∧ ((Instr.setup 1#32).space = .command ∧ (Instr.setup 1#32).wellFormed = true
          ∧ 4 < (encode (.setup 1#32)).length)
      ∧ State.reset.cfg.bufferMax ≤ (0x0100#16).toNat ∧ State.reset.cfg.bufferMax < (0x0101#16).toNat
      ∧ ((given (.word [0x06#8]) State.reset).polling = false
          ∧ (given (.word [0x06#8]) State.reset).env.inputs = [.word [0x06#8]]
          ∧ decodeCommand [0x06#8] = .error .tooShort) := by decide
theorem witness_StepRunsDecodedCommand :
    ((given (.word [0x05#8]) State.reset).polling = false
        ∧ (given (.word [0x05#8]) State.reset).env.inputs = [.word [0x05#8]]
        ∧ decodeCommand [0x05#8] = .ok .stationAddress)
      ∧ (State.reset.setPolling true).polling = true
      ∧ (State.reset.polling = false ∧ State.reset.env.inputs = []) := by decide
theorem witness_StimuliChangeTheAgents :
    [Input.setTicks 65536, .wait 1, .rx [0x02#8], .rxErr, .wrErr, .txBusy, .txDone, .rxEndless (some 0),
        .configure (Config.vector .ascii)].map
        (fun x => ((given x State.reset).polling, (given x State.reset).env.inputs))
      = [Input.setTicks 65536, .wait 1, .rx [0x02#8], .rxErr, .wrErr, .txBusy, .txDone,
          .rxEndless (some 0), .configure (Config.vector .ascii)].map (fun x => (false, [x]))
      ∧ (State.reset.env.rxScript = [] ∧ State.reset.env.wrScript = [] ∧ State.reset.env.doneScript = []
        ∧ State.reset.env.tickScript = [] ∧ State.reset.env.now < 2 ^ State.reset.cfg.tickBits)
      ∧ (State.reset.env.rxErr = false ∧ State.reset.env.wrErr = false ∧ State.reset.env.rxQueue = []
        ∧ State.reset.env.rxEndless = none ∧ 0 < State.reset.cfg.bufferMax)
      ∧ { State.reset.env with rxErr := true, wrErr := true }.rxErr = true
      ∧ { State.reset.env with rxQueue := [0x02#8] }.rxQueue = 0x02#8 :: []
      ∧ { State.reset.env with rxEndless := some 0 }.rxEndless = some 0 := by decide
theorem witness_HexCodec :
    [0x30, 0x39, 0x41, 0x46, 0x61, 0x66, 0x2F, 0x3A, 0x40, 0x47, 0x60, 0x67].map
        (fun c => hexval (BitVec.ofNat 8 c))
      = [some 0#4, some 9#4, some 10#4, some 15#4, some 10#4, some 15#4, none, none, none, none, none,
          none] := by decide
theorem witness_ElapsedIsModular :
    65535 < 2 ^ (Config.vector .rtu).tickBits ∧ 0 < 2 ^ (Config.vector .rtu).tickBits
      ∧ 1 ≤ (Config.vector .rtu).tickBits := by decide
theorem witness_ResetConstructs :
    Config.valid State.reset.resetCfg = true ∧ Config.valid (Config.vector .ascii) = true
      ∧ constantsFit { Config.vector .ascii with usPerTick := 15 } 9600 = false
      ∧ constantsFit { Config.vector .ascii with usPerTick := 16 } 9600 = true := by decide
theorem witness_ResetState :
    State.reset.resetCfg = Config.vector .rtu ∧ State.reset.env.tickScript = []
      ∧ State.reset.env.now = 0 := by decide
theorem witness_StationFrameReadyAndBufferMax :
    field (exec .beginSend (inState .rtu .frameReady)) (fun t => t.result) = some (.bool true) := by
  decide
theorem witness_AccessorsAnswer :
    (inState .rtu .frameReady).blk.st = .frameReady ∧ (inState .ascii .collision).blk.st = .collision
      ∧ (inState .rtu .txPdu).blk.st ≠ .frameReady
      ∧ ((0x00FF#16).toNat < State.reset.cfg.bufferMax
          ∧ Memory.read ((inState .rtu .queue).writeBuf 255 [0x7E#8]).blk.buf 255 = some 0x7E#8)
      ∧ State.reset.cfg.bufferMax ≤ (0x0100#16).toNat := by decide
theorem witness_ComposingCommands :
    (inState .rtu .queue).blk.st = .queue ∧ (inState .ascii .collision).blk.st = .collision
      ∧ (0x0100#16).toNat ≤ (inState .rtu .queue).cfg.bufferMax
      ∧ (0x00FF#16).toNat < (inState .rtu .queue).cfg.bufferMax
      ∧ (inState .rtu .frameReady).blk.st ≠ .queue ∧ (inState .rtu .frameReady).blk.st ≠ .collision
      ∧ (inState .rtu .queue).cfg.bufferMax < (0x0101#16).toNat
      ∧ (inState .rtu .queue).cfg.bufferMax ≤ (0x0100#16).toNat := by decide
theorem witness_BeginSendAcquires :
    (inState .rtu .idle).blk.st = .idle ∧ (inState .rtu .collision).blk.st = .collision
      ∧ ((inState .rtu .queue).blk.st ≠ .idle ∧ (inState .rtu .queue).blk.st ≠ .frameReady
          ∧ (inState .rtu .queue).blk.st ≠ .collision) := by decide
theorem witness_SendStartsTransmission :
    (((inState .rtu .queue).setLen 255).blk.st = .queue
        ∧ ((inState .rtu .queue).setLen 255).blk.len < (inState .rtu .queue).cfg.bufferMax
        ∧ (inState .rtu .queue).cfg.mode = .rtu)
      ∧ ((inState .ascii .queue).blk.st = .queue
        ∧ (inState .ascii .queue).blk.len < (inState .ascii .queue).cfg.bufferMax
        ∧ (inState .ascii .queue).cfg.mode = .ascii)
      ∧ (inState .rtu .queue).cfg.bufferMax ≤ ((inState .rtu .queue).setLen 256).blk.len
      ∧ (inState .rtu .collision).blk.st = .collision
      ∧ (inState .ascii .collision).blk.st = .collision
      ∧ (inState .rtu .exception).blk.st = .exception
      ∧ ((inState .rtu .frameReady).blk.st ≠ .queue ∧ (inState .rtu .frameReady).blk.st ≠ .collision
        ∧ (inState .rtu .frameReady).blk.st ≠ .exception) := by decide
theorem witness_FinishedReleases :
    (inState .rtu .frameReady).blk.st = .frameReady
      ∧ ((inState .rtu .collision).blk.st = .collision ∧ (inState .rtu .collision).cfg.mode = .rtu)
      ∧ ((inState .ascii .collision).blk.st = .collision
        ∧ (inState .ascii .collision).cfg.mode = .ascii)
      ∧ (inState .rtu .exception).blk.st = .exception
      ∧ ((inState .rtu .txDrain).blk.st ≠ .frameReady ∧ (inState .rtu .txDrain).blk.st ≠ .queue
        ∧ (inState .rtu .txDrain).blk.st ≠ .collision
        ∧ (inState .rtu .txDrain).blk.st ≠ .exception) := by decide
theorem witness_SetupDerives :
    (inState .rtu .idle).cfg.asciiGuardTicks < 2 ^ (inState .rtu .idle).cfg.tickBits
      ∧ (1#32 ≠ 0#32 ∧ (inState .rtu .idle).cfg.mode = .rtu)
      ∧ (max 2 (38500000 / 19200 / 100) ≤ 2 ^ 16 - 1 ∧ max 2 (1750 / 100) ≤ 2 ^ 16 - 1)
      ∧ 2 ^ 16 - 1 < max 2 (38500000 / 1 / 100)
      ∧ (inState .ascii .idle).cfg.mode = .ascii ∧ max 2 (1000000 / 100) ≤ 2 ^ 16 - 1
      ∧ 2 ^ 8 - 1 < max 2 (1000000 / 100) := by decide
theorem witness_StatusIsReportedOnChange :
    (inState .rtu .idle).cfg.diag = false
      ∧ { inState .rtu .receive with cfg := { cfgOf .rtu with diag := true } }.cfg.diag = true
      ∧ St.receive.statusPair ≠ (inState .rtu .receive).blk.stat
      ∧ St.idle.statusPair = (inState .rtu .idle).blk.stat := by decide
theorem witness_PollWithoutWork :
    ((inState .rtu .idle).setBlk { (inState .rtu .idle).blk with inPoll := true }).blk.inPoll = true
      ∧ ((inState .rtu .idle).setPolling true).polling = true
      ∧ ((inState .rtu .exception).blk.inPoll = false ∧ (inState .rtu .exception).polling = false
        ∧ (inState .rtu .exception).blk.st = .exception)
      ∧ ((inState .rtu .idle).blk.st = .idle ∧ (inState .rtu .idle).blk.inPoll = false
        ∧ (inState .rtu .idle).polling = false
        ∧ (inState .rtu .idle).blk.StatusOk (inState .rtu .idle).cfg
        ∧ (inState .rtu .idle).env.rxScript = [] ∧ (inState .rtu .idle).env.rxErr = false
        ∧ (inState .rtu .idle).env.rxQueue = [] ∧ (inState .rtu .idle).env.rxEndless = none) := by decide
theorem witness_PollRunsToTheFirstReturn :
    (inState .rtu .dump).blk.inPoll = false ∧ (inState .rtu .dump).blk.st ≠ .exception
      ∧ (inState .rtu .dump).polling = false ∧ (inState .rtu .dump).env.rxEndless = none
      ∧ (enterPoll (endless (inState .rtu .dump))).polling = true
      ∧ [St.dump, .idle, .receive].map (fun x => (endless (inState .rtu x)).blk.st)
          = [.dump, .idle, .receive]
      ∧ (endless (inState .rtu .dump)).cfg.mode = .rtu ∧ 0 < (endless (inState .rtu .dump)).cfg.bufferMax
      ∧ (endless (inState .rtu .dump)).env.rxScript = []
      ∧ (endless (inState .rtu .dump)).env.rxEndless ≠ none
      ∧ (endless (inState .rtu .dump)).blk.inPoll = false
      ∧ (endless (inState .rtu .dump)).polling = false := by decide
theorem witness_HoldingMicroSteps :
    (Machine.discard (inState .rtu .frameReady).sampled).1 = .count 0
      ∧ (Machine.discard (hears (.bytes [0x02#8]) (inState .rtu .queue)).sampled).1 = .count 1
      ∧ (Machine.discard (hears .err (inState .ascii .collision)).sampled).1 = .err := by decide
theorem witness_OutOfRangeAnswersAreRefused :
    (inState .rtu .idle).blk.st.inMode (inState .rtu .idle).cfg.mode = true
      ∧ (microStep (hears (.bytes [0x02#8, 0x07#8]) (inState .rtu .idle))).1 = .refused := by decide
theorem witness_DumpMicroStep :
    (Machine.discard (hears .err (inState .rtu .dump)).sampled).1 = .err
      ∧ (Machine.discard (hears (.bytes [0x02#8]) (inState .rtu .dump)).sampled).1 = .count 1
      ∧ (Machine.discard (inState .rtu .dump).sampled).1 = .count 0
      ∧ (inState .rtu .dump).blk.t35
          ≤ elapsed (cfgOf .rtu) (inState .rtu .dump).blk.tRef (atTick 40 (inState .rtu .dump)).now
      ∧ elapsed (cfgOf .rtu) (inState .rtu .dump).blk.tRef (atTick 39 (inState .rtu .dump)).now
          < (inState .rtu .dump).blk.t35 := by decide
theorem witness_RtuIdleMicroStep :
    (read1 (inState .rtu .idle).sampled).1 = .nothing
      ∧ (read1 (hears .err (inState .rtu .idle)).sampled).1 = .err
      ∧ (read1 (hears (.bytes [0x02#8]) (inState .rtu .idle)).sampled).1 = .byte 0x02#8
      ∧ (inState .rtu .idle).blk.station = 0#8
      ∧ ((0x05#8 : Byte) ≠ 0#8 ∧ (0x02#8 : Byte) ≠ 0#8 ∧ (0x02#8 : Byte) ≠ 0x05#8) := by decide
theorem witness_ReceiveByteMicroStep :
    ((read1 (hears (.bytes [0x07#8]) (inState .rtu .receive)).sampled).1 = .byte 0x07#8
        ∧ (inState .rtu .receive).blk.gap = false
        ∧ (inState .rtu .receive).blk.rxN < (inState .rtu .receive).cfg.bufferMax)
      ∧ (inState .rtu .receive).cfg.bufferMax
          ≤ { (inState .rtu .receive).blk with rxN := 256 }.rxN
      ∧ { (inState .rtu .receive).blk with gap := true }.gap = true
      ∧ (read1 (hears .err (inState .rtu .receive)).sampled).1 = .err := by decide
theorem witness_ReceiveSilenceMicroStep :
    (read1 (atTick 40 (inState .rtu .receive)).sampled).1 = .nothing
      ∧ [16, 17, 39, 40].map (fun t => elapsed (cfgOf .rtu) 0 (atTick t (inState .rtu .receive)).now)
          = [16, 17, 39, 40]
      ∧ ((inState .rtu .receive).blk.t15, (inState .rtu .receive).blk.t35) = (17, 40)
      ∧ ((inState .rtu .receive).blk.rxN < 2 ∧ 2 ≤ { (inState .rtu .receive).blk with rxN := 2 }.rxN)
      ∧ ((Config.vector .rtu).dispatcherAttached = true
        ∧ (inState .rtu .receive).cfg.dispatcherAttached = false
        ∧ (inState .rtu .receive).env.callback = []) := by decide
theorem witness_RtuTransmitPhases :
    (Machine.discard (hears .err (inState .rtu .txAddress)).sampled).1 = .err
      ∧ (Machine.discard (inState .rtu .txAddress).sampled).1 = .count 0
      ∧ [WrAnswer.err, .accepted 0, .accepted 1].map
          (fun a => (write [0x02#8] (accepts a (inState .rtu .txAddress))).1)
          = [.err, .accepted 0, .accepted 1]
      ∧ ((inState .rtu .txPdu).blk.txPos = (inState .rtu .txPdu).blk.len
        ∧ (holding [0x07#8] (inState .rtu .txPdu)).blk.txPos
          ≠ (holding [0x07#8] (inState .rtu .txPdu)).blk.len)
      ∧ ({ (inState .rtu .txChecksum).blk with txPos := 2 }.txPos = 2
        ∧ (inState .rtu .txChecksum).blk.txPos ≠ 2)
      ∧ ((writeComplete (inState .rtu .txDrain)).1 = true
        ∧ (writeComplete ((inState .rtu .txDrain).setEnv
            { (inState .rtu .txDrain).env with txDone := false })).1 = false) := by decide

/-- A PDU of one byte held in QUEUE. -/
def queued (m : Mode) : State := holding [0x07#8] (inState m .queue)

/-- What SEND leaves. -/
def sent (m : Mode) : State :=
  match exec .send (queued m) with
  | .next t => t
  | .fault _ => queued m
  | .refused _ => queued m

set_option maxRecDepth 8000 in
theorem witness_RtuTransmissionBytes :
    (queued .rtu).cfg.mode = .rtu ∧ (queued .rtu).blk.st = .queue
      ∧ (queued .rtu).blk.len < (queued .rtu).cfg.bufferMax ∧ (queued .rtu).Safe
      ∧ Memory.written (queued .rtu).blk.buf (queued .rtu).blk.len = true
      ∧ field (exec .send (queued .rtu)) id = some (sent .rtu)
      ∧ (∀ k, k ≤ 5 → (microSteps k (sent .rtu)).blk.st.txActive = true)
      ∧ (microSteps 5 (sent .rtu)).Safe ∧ (microSteps 5 (sent .rtu)).blk.st = .txDrain := by decide
set_option maxRecDepth 8000 in
theorem witness_AsciiTransmissionBytes :
    (queued .ascii).cfg.mode = .ascii ∧ (queued .ascii).blk.st = .queue
      ∧ (queued .ascii).blk.len < (queued .ascii).cfg.bufferMax ∧ (queued .ascii).Safe
      ∧ Memory.written (queued .ascii).blk.buf (queued .ascii).blk.len = true
      ∧ field (exec .send (queued .ascii)) id = some (sent .ascii)
      ∧ (∀ k, k ≤ 10 → (microSteps k (sent .ascii)).blk.st.txActive = true)
      ∧ (microSteps 10 (sent .ascii)).Safe ∧ (microSteps 10 (sent .ascii)).blk.st = .txDrain := by
  decide
set_option maxRecDepth 8000 in
theorem witness_BinaryFrameReceived :
    (inState .rtu .idle).Inv ∧ (inState .rtu .idle).cfg.mode = .rtu
      ∧ (inState .rtu .idle).blk.st = .idle ∧ (inState .rtu .idle).cfg.dispatcherAttached = false
      ∧ (inState .rtu .idle).NoCallback ∧ (inState .rtu .idle).blk.station = 0#8
      ∧ (0x41#8 = loByte (crc16 [0x02#8, 0x07#8]) ∧ 0x12#8 = hiByte (crc16 [0x02#8, 0x07#8]))
      ∧ 0x42#8 ≠ loByte (crc16 [0x02#8, 0x07#8]) ∧ 254 + 2 ≤ (cfgOf .rtu).bufferMax
      ∧ (cfgOf .rtu).bufferMax < 255 + 2 := by decide
theorem witness_CharacterFrameReceived :
    (inState .ascii .idle).cfg.mode = .ascii ∧ (inState .ascii .idle).blk.st = .idle
      ∧ (inState .ascii .idle).cfg.dispatcherAttached = false ∧ (inState .ascii .idle).NoCallback
      ∧ (inState .ascii .idle).blk.StatusOk (inState .ascii .idle).cfg
      ∧ (inState .ascii .idle).blk.station = 0#8 ∧ 0xEF#8 = lrc [0x11#8] ∧ 0xEE#8 ≠ lrc [0x11#8]
      ∧ 255 + 1 ≤ (cfgOf .ascii).bufferMax ∧ (cfgOf .ascii).bufferMax < 256 + 1 := by decide
theorem witness_ArrivalsAreMicroSteps :
    (inState .ascii .rxLf).blk.st ≠ .exception ∧ (inState .ascii .exception).blk.st = .exception
      ∧ (Instr.rtuFrame 0x02#8 [] 0x41#8 0x12#8).space = .rtuFrame
      ∧ (Instr.asciiFrame 0x11#8 [0x03#8] 0x7E#8).space = .asciiFrame
      ∧ [inState .rtu .idle, inState .rtu .dump, inState .rtu .frameReady, inState .ascii .idle].map
          (fun s => (arriveAll (encode (.rtuFrame 0x02#8 [] 0x41#8 0x12#8)) s).blk.st)
        = [.receive, .dump, .collision, .idle] := by decide
theorem witness_ColonStartsAFrame :
    (inState .ascii .rxLf).cfg.mode = .ascii ∧ (inState .ascii .rxLf).blk.st = .rxLf
      ∧ (read1 (hears (.bytes [0x3A#8]) (inState .ascii .rxLf)).sampled).1 = .byte 0x3A#8 := by decide
theorem witness_IllegalCharactersAbort :
    (read1 (hears (.bytes [0x0D#8]) (inState .ascii .idle)).sampled).1 = .byte 0x0D#8
      ∧ (hexval 0x0D#8 = none ∧ (inState .ascii .rxAddrHi).blk.st = .rxAddrHi)
      ∧ (hexval 0x0A#8 = none ∧ (0x0A#8 : Byte) ≠ 0x0D#8
        ∧ (inState .ascii .rxDataHi).blk.st = .rxDataHi)
      ∧ ((0x30#8 : Byte) ≠ 0x0A#8 ∧ (inState .ascii .rxLf).blk.st = .rxLf) := by decide
theorem witness_HexDigitsAreDecoded :
    (hexval 0x31#8 = some 1#4 ∧ hexval 0x66#8 = some 15#4)
      ∧ (read1 (hears (.bytes [0x31#8]) (inState .ascii .rxAddrHi)).sampled).1 = .byte 0x31#8
      ∧ ((inState .ascii .rxAddrLo).blk.st = .rxAddrLo
        ∧ (inState .ascii .rxAddrLo).blk.station = 0#8)
      ∧ ((0x05#8 : Byte) ≠ 0#8 ∧ (BitVec.ofNat 8 (16 * 1 + 1) : Byte) ≠ 0#8
        ∧ (BitVec.ofNat 8 (16 * 1 + 1) : Byte) ≠ 0x05#8)
      ∧ (inState .ascii .rxDataLo).blk.rxN < (inState .ascii .rxDataLo).cfg.bufferMax
      ∧ (inState .ascii .rxDataLo).cfg.bufferMax
          ≤ { (inState .ascii .rxDataLo).blk with rxN := 256 }.rxN := by decide
theorem witness_CarriageReturnAndLineFeed :
    (read1 (hears (.bytes [0x0D#8]) (inState .ascii .rxDataHi)).sampled).1 = .byte 0x0D#8
      ∧ (read1 (hears (.bytes [0x0A#8]) (inState .ascii .rxLf)).sampled).1 = .byte 0x0A#8
      ∧ (inState .ascii .rxLf).blk.rxN < 1
      ∧ (1 ≤ { (inState .ascii .rxLf).blk with rxN := 1 }.rxN
        ∧ (inState .ascii .rxLf).blk.lrc = 0#8) := by decide
theorem witness_FrameReadyCallback :
    (decodeCommand [0x04#8] = .ok .finished ∧ Instr.finished ≠ .poll)
      ∧ decodeCommand [0x01#8] = .ok .poll
      ∧ decodeCommand [0x06#8] = .error .tooShort
      ∧ (inState .rtu .receive).cfg.dispatcherAttached = false
      ∧ { (inState .rtu .receive).env with callback := [[[0x04#8]]] }.callback = [[0x04#8]] :: []
      ∧ (read1 (atTick 40 (inState .rtu .receive)).sampled).1 = .nothing
      ∧ (inState .rtu .receive).blk.t35
          ≤ elapsed (cfgOf .rtu) 0 (atTick 40 (inState .rtu .receive)).now
      ∧ { (inState .rtu .receive).blk with rxN := 2, crc := 0#16 }.rxN = 2
      ∧ (read1 (hears (.bytes [0x0A#8]) (inState .ascii .rxLf)).sampled).1 = .byte 0x0A#8
      ∧ { (inState .ascii .rxLf).blk with rxN := 1 }.lrc = 0#8 := by decide
theorem witness_CharacterTimeout :
    (read1 (inState .ascii .idle).sampled).1 = .nothing
      ∧ (read1 (hears .err (inState .ascii .rxLf)).sampled).1 = .err
      ∧ [9999, 10000].map (fun t => elapsed (cfgOf .ascii) 0 (atTick t (inState .ascii .rxLf)).now)
          = [9999, 10000]
      ∧ (inState .ascii .rxLf).blk.t1s = 10000 := by decide
theorem witness_AsciiAbortDrainAndGuard :
    (Machine.discard (hears .err (inState .ascii .txEnd)).sampled).1 = .err
      ∧ ((Machine.discard (inState .ascii .txDrain).sampled).1 = .count 0
        ∧ (writeComplete (inState .ascii .txDrain)).1 = true)
      ∧ [3, 4].map (fun t => elapsed (cfgOf .ascii) 0 (atTick t (inState .ascii .txGuard)).now) = [3, 4]
      ∧ (cfgOf .ascii).asciiGuardTicks = 4 := by decide
theorem witness_AsciiTransmitPhases :
    (inState .ascii .txEnd).cfg.mode = .ascii
      ∧ (Machine.discard (inState .ascii .txEnd).sampled).1 = .count 0
      ∧ { (inState .ascii .txEnd).blk with txPos := 2 }.txPos = [0x0D#8, 0x0A#8].length
      ∧ (inState .ascii .txEnd).blk.txPos ≠ [0x0D#8, 0x0A#8].length
      ∧ [WrAnswer.err, .accepted 0, .accepted 2].map
          (fun a => (write [0x0D#8, 0x0A#8] (accepts a (inState .ascii .txEnd))).1)
          = [.err, .accepted 0, .accepted 2] := by decide
theorem witness_DispatchRunsDecodedRequest :
    ((queued .rtu).goto .frameReady).blk.st = .frameReady
      ∧ decodeRequest ((queued .rtu).goto .frameReady).pdu = .ok (.illegalFunction 0x07#8 [])
      ∧ ((queued .rtu).blk.st ≠ .frameReady ∧ (queued .rtu).blk.st ≠ .collision
        ∧ (Instr.readCoils []).space = .request) := by decide
theorem witness_DispatchEmptyAndRefused :
    ((inState .rtu .frameReady).blk.st = .frameReady ∧ (inState .rtu .frameReady).blk.len = 0)
      ∧ ((inState .rtu .collision).blk.st = .collision ∧ (inState .rtu .collision).blk.len = 0)
      ∧ ((inState .rtu .queue).blk.st ≠ .frameReady ∧ (inState .rtu .queue).blk.st ≠ .collision) := by
  decide
theorem witness_HandBackAnswers :
    ({ (inState .rtu .queue).blk with station := 5#8 }.station ≠ 0#8
        ∧ (inState .rtu .queue).blk.faddr = 0#8)
      ∧ (inState .rtu .queue).blk.station = 0#8 ∧ (0x01#8 : Byte) ≠ 0#8 := by decide
/-- Counts 2032 and 2033 bits, 127 and 128 registers: the largest admitted by 256 bytes and the next. -/
theorem witness_ReadBitsServed :
    [[0x00#8, 0x13#8, 0x07#8, 0xF0#8], [0x00#8, 0x13#8, 0x07#8, 0xF1#8], [0x00#8, 0x13#8, 0x00#8, 0x00#8]].map
        (fun d => (d.length, 2 + ((reqCount d).toNat + 7) / 8)) = [(4, 256), (4, 257), (4, 2)]
      ∧ (inState .rtu .frameReady).cfg.bufferMax = 256
      ∧ (callHandler (.readCoils 0x0013#16 0x000A#16)
          (beginSend (answers ⟨0#8, [0xCD#8, 0x01#8], []⟩ (inState .rtu .frameReady))).2).1.bytes.length
        = (10 + 7) / 8 := by decide
theorem witness_ReadRegistersServed :
    [[0x00#8, 0x13#8, 0x00#8, 0x7F#8], [0x00#8, 0x13#8, 0x00#8, 0x80#8], [0x00#8, 0x13#8, 0x00#8, 0x00#8]].map
        (fun d => (d.length, 2 + 2 * (reqCount d).toNat)) = [(4, 256), (4, 258), (4, 2)]
      ∧ (callHandler (.readInputRegisters 0x0008#16 0x0001#16)
          (beginSend (answers ⟨0#8, [], [0x000A#16]⟩ (inState .rtu .collision))).2).1.regs.length = 1
      ∧ (callHandler (.readInputRegisters 0x0008#16 0x0001#16)
          (beginSend (answers ⟨2#8, [], []⟩ (inState .rtu .frameReady))).2).1.exc = 2#8 := by decide
theorem witness_WriteSingleServed :
    [[0x00#8, 0xAC#8, 0xFF#8, 0x00#8], [0x00#8, 0xAC#8, 0x00#8, 0x00#8], [0x00#8, 0xAC#8, 0x00#8, 0xFF#8]].map
        reqCount = [0xFF00#16, 0x0000#16, 0x00FF#16]
      ∧ (callHandler (.writeSingleCoil 0x00AC#16 true)
          (beginSend (answers ⟨0#8, [], []⟩ (inState .rtu .frameReady))).2).1.exc = 0#8
      ∧ (callHandler (.writeSingleRegister 0x0001#16 0x0003#16)
          (beginSend (answers ⟨4#8, [], []⟩ (inState .rtu .frameReady))).2).1.exc = 4#8 := by decide
theorem witness_WriteMultipleServed :
    [[0x00#8, 0x01#8, 0x00#8, 0x00#8, 0x00#8], [0x00#8, 0x01#8, 0x00#8, 0x02#8, 0x04#8, 0x00#8, 0x0A#8, 0x01#8],
        [0x00#8, 0x01#8, 0x00#8, 0x01#8, 0x01#8, 0x01#8]].map
        (fun d => (d.length, (reqCount d).toNat, (d.getD 4 0#8).toNat)) = [(5, 0, 0), (8, 2, 4), (6, 1, 1)]
      ∧ (callHandler (.writeMultipleCoils 0x0001#16 0x0001#16 [0x01#8])
          (beginSend (answers ⟨0#8, [], []⟩ (inState .rtu .frameReady))).2).1.exc = 0#8 := by decide
theorem witness_IllegalFunctionServed :
    (inState .rtu .frameReady).blk.st = .frameReady
      ∧ [0x00, 0x07, 0x0E, 0x11, 0xFF].map (fun c => isFunctionCode (BitVec.ofNat 8 c))
        = [false, false, false, false, false] := by decide
theorem witness_ExceptionResponseEncoded :
    (inState .rtu .queue).blk.st = .queue ∧ (inState .ascii .collision).blk.st = .collision
      ∧ ((inState .rtu .frameReady).blk.st ≠ .queue
        ∧ (inState .rtu .frameReady).blk.st ≠ .collision) := by decide
theorem witness_HandlerDefaults :
    { cfgOf .rtu with handler := none }.handler = none
      ∧ { cfgOf .rtu with handler := some HandlerOps.none }.handler = some HandlerOps.none
      ∧ (HandlerOps.none.readCoils = false ∧ HandlerOps.none.writeMultipleRegisters = false
        ∧ HandlerOps.none.writeSingleCoil = false)
      ∧ (cfgOf .rtu).handler = some HandlerOps.all
      ∧ (HandlerCall.writeSingleCoil 0x00AC#16 true).implementedBy HandlerOps.all = true
      ∧ (answers ⟨0#8, [], []⟩ State.reset).env.handlerScript = [⟨0#8, [], []⟩] := by decide
theorem witness_InvariantIsKept :
    (given (.word [0x05#8]) State.reset).Inv
      ∧ field (step (given (.word [0x05#8]) State.reset)) (fun t => t.blk.st) = some .dump
      ∧ (inState .ascii .txPdu).Inv :=
  ⟨by decide, by decide, by decide⟩
theorem witness_StepKeepsAccumulators :
    (inState .ascii .rxAddrLo).LrcOk ∧ (inState .ascii .rxAddrLo).CrcOk
      ∧ field (step (given (.word [0x05#8]) (inState .ascii .rxAddrLo))) (fun t => t.blk.st)
        = some .rxAddrLo := by decide
theorem witness_NothingElseEntersException :
    ((inState .rtu .txAddress).blk.st ≠ .exception
        ∧ (microStep (accepts .err (inState .rtu .txAddress))).2.blk.st = .exception)
      ∧ (Instr.send.space = .command
        ∧ field (exec .send ((inState .rtu .queue).setLen 256)) (fun t => t.blk.st)
          = some .exception) := by decide
theorem witness_OnlyResetLeavesException :
    (inState .rtu .exception).blk.st = .exception ∧ Config.valid (inState .rtu .exception).resetCfg = true
      ∧ Instr.poll ≠ .reset
      ∧ field (exec .poll (inState .rtu .exception)) (fun t => t.result) = some (.deadline 0) := by decide
theorem witness_BufferWrittenByItsHolder :
    field (exec (.bufferWrite 0#16 0x07#8) (inState .rtu .queue)) (fun t => t.blk.buf)
        = some [(0, 0x07#8)]
      ∧ (microStep (hears (.bytes [0x07#8]) (inState .rtu .receive))).2.blk.buf = [(0, 0x07#8)]
      ∧ (inState .rtu .queue).blk.buf = [] := by decide
theorem witness_OnlyResetReconfigures :
    Instr.poll ≠ .reset ∧ (inState .rtu .dump).NoCallback
      ∧ field (exec .poll (inState .rtu .dump)) (fun t => t.blk.st) = some .dump := by decide

end Sys2Proof.Tests
end

section
/-! PROOF of O59: the PDU buffer is written only by its holder (10_state.md R33). First, one buffer frame
per operation that commands and the dispatcher share; then the commands, the transmit and silence rules of
POLL, and the micro-step. -/

namespace Sys2Proof.Machine

/-! ### What the shared operations leave in the buffer -/

theorem St.holder_eq_application_iff (x : St) :
    x.holder = .application ↔ x = .frameReady ∨ x = .queue ∨ x = .collision := by
  cases x <;> simp [St.holder]

/-- The states in which the host may compose are states of the application's hold. -/
theorem St.composing_eq_false_of_holder_ne {x : St} (hx : x.holder ≠ .application) :
    x.composing = false := by
  cases x <;> simp_all [St.holder, St.composing]

@[simp] theorem ticks_buf (s : State) : (ticks s).2.blk.buf = s.blk.buf := by
  rw [(ticks_same s).blk]

@[simp] theorem endCommand_buf (s t : State) : (endCommand s t).blk.buf = t.blk.buf := by
  rcases endCommand_cases s t with h | h <;> simp [h]

@[simp] theorem leaveCollision_buf (s : State) : (leaveCollision s).blk.buf = s.blk.buf := by
  cases h : s.cfg.mode <;> simp [leaveCollision, h]

@[simp] theorem startTransmit_buf (s : State) : (startTransmit s).blk.buf = s.blk.buf := by
  cases h : s.cfg.mode <;> simp [startTransmit, h]

@[simp] theorem beginSend_buf (s : State) : (beginSend s).2.blk.buf = s.blk.buf := by
  rcases beginSend_cases s with ⟨h, -⟩ | ⟨h, -⟩ | ⟨h, -⟩ <;> simp [h]

@[simp] theorem sendFrame_buf (s : State) : (sendFrame s).blk.buf = s.blk.buf := by
  rcases sendFrame_cases s with ⟨-, -, h⟩ | ⟨-, -, h⟩ | ⟨-, h⟩ | ⟨-, h⟩ | ⟨-, -, -, h⟩ <;> simp [h]

@[simp] theorem finish_buf (s : State) : (finish s).blk.buf = s.blk.buf := by
  rcases finish_cases s with ⟨-, h⟩ | ⟨-, h⟩ | ⟨-, h⟩ | ⟨-, -, -, -, h⟩ <;> simp [h]

@[simp] theorem setupBaud_buf (baud : Nat) (s : State) : (setupBaud baud s).blk.buf = s.blk.buf := by
  rcases setupBaud_cases baud s with h | ⟨-, -, -, h⟩ | ⟨-, -, -, h⟩ <;> simp [h]

/-! ### Commands, requests and responses -/

/-- A request row is refused where the application does not hold the buffer. -/
theorem serve_buf_of_holder_ne (fc : Byte) (body : State → Option Byte × State) {s : State}
    (hs : s.blk.st.holder ≠ .application) : (serve fc body s).blk.buf = s.blk.buf := by
  rw [Ne, St.holder_eq_application_iff] at hs
  rcases serve_cases fc body s with ⟨h, -⟩ | ⟨hst, -⟩
  · simp [h]
  · exact absurd (hst.imp_right .inr) hs

theorem dispatch_eq_markRefused {s : State} (hf : s.blk.st ≠ .frameReady)
    (hc : s.blk.st ≠ .collision) : dispatch s = s.markRefused := by
  cases h : s.blk.st <;> simp_all [dispatch]

theorem dispatch_buf_of_holder_ne {s : State} (hs : s.blk.st.holder ≠ .application) :
    (dispatch s).blk.buf = s.blk.buf := by
  rw [Ne, St.holder_eq_application_iff] at hs
  rw [dispatch_eq_markRefused (fun h => hs (.inl h)) (fun h => hs (.inr (.inr h)))]
  rfl

theorem execBufferWrite_buf_of_holder_ne {i : U16} {v : Byte} {s t : State}
    (hs : s.blk.st.holder ≠ .application) (h : execBufferWrite i v s = .next t) :
    t.blk.buf = s.blk.buf := by
  simp only [execBufferWrite, St.composing_eq_false_of_holder_ne hs] at h
  split at h <;> cases h <;> rfl

theorem execExceptionResponse_buf_of_holder_ne {fc code : Byte} {s t : State}
    (hs : s.blk.st.holder ≠ .application) (h : execExceptionResponse fc code s = .next t) :
    t.blk.buf = s.blk.buf := by
  simp only [execExceptionResponse, St.composing_eq_false_of_holder_ne hs] at h
  cases h; rfl

/-- The accessors and setters beside BUFFER_WRITE write no cell in any state, admitted or refused. -/
theorem execAccessor_buf {i : Instr} {s t : State}
    (hi : i = .frameAddress ∨ (∃ a, i = .setFrameAddress a) ∨ (∃ k, i = .bufferRead k)
      ∨ i = .bufferLen ∨ ∃ n, i = .setBufferLen n)
    (h : exec i s = .next t) : t.blk.buf = s.blk.buf := by
  rcases hi with rfl | ⟨a, rfl⟩ | ⟨k, rfl⟩ | rfl | ⟨n, rfl⟩
  · simp only [exec, execFrameAddress] at h
    split at h <;> cases h <;> rfl
  · simp only [exec, execSetFrameAddress] at h
    split at h <;> cases h <;> rfl
  · simp only [exec, execBufferRead] at h
    split at h
    · cases h; rfl
    · split at h <;> cases h <;> rfl
  · simp only [exec, execBufferLen] at h
    split at h <;> cases h <;> rfl
  · simp only [exec, execSetBufferLen] at h
    split at h
    · cases h; rfl
    · split at h <;> cases h <;> rfl

/-- R33 for the host: without the application's hold no command, request or response row but POLL and
RESET touches the buffer. -/
theorem exec_buf_of_holder_ne {i : Instr} {s t : State}
    (hi : i.space = .command ∨ i.space = .request ∨ i.space = .response)
    (hp : i ≠ .poll) (hr : i ≠ .reset) (hs : s.blk.st.holder ≠ .application)
    (h : exec i s = .next t) : t.blk.buf = s.blk.buf := by
  cases i
  case reset => exact absurd rfl hr
  case poll => exact absurd rfl hp
  case beginSend => cases h; exact beginSend_buf s
  case send => cases h; exact sendFrame_buf s
  case finished => cases h; exact finish_buf s
  case setup baud => cases h; exact setupBaud_buf baud.toNat s
  case bufferWrite => exact execBufferWrite_buf_of_holder_ne hs h
  case exceptionResponse => exact execExceptionResponse_buf_of_holder_ne hs h
  case dispatch => cases h; exact dispatch_buf_of_holder_ne hs
  case readCoils | readDiscreteInputs | readHoldingRegisters | readInputRegisters | writeSingleCoil
      | writeSingleRegister | writeMultipleCoils | writeMultipleRegisters | illegalFunction =>
    cases h; exact serve_buf_of_holder_ne _ _ hs
  case frameAddress | setFrameAddress | bufferRead | bufferLen | setBufferLen =>
    exact execAccessor_buf (by simp) h
  case stationAddress | setStationAddress | frameReady | bufferMax | crc16Update | crc16 | lrcUpdate
      | lrc | reservedCommand => cases h; rfl
  case rtuFrame | asciiFrame | asciiColon | asciiCr | asciiLf | asciiHexDigit09 | asciiHexDigitUpper
      | asciiHexDigitLower | asciiOther => simp [Instr.space] at hi

/-! ### The rules of POLL outside reception -/

theorem stepHeld_buf (s : State) : (stepHeld s).2.blk.buf = s.blk.buf := by
  rcases hd : Machine.discard s with ⟨r, t⟩
  have ht := congrArg Block.buf (discard_same hd).blk
  cases r with
  | count k => by_cases hk : k = 0 <;> simp [stepHeld, hd, hk, ht]
  | err | outOfRange => simp [stepHeld, hd, ht]

theorem stepCollision_buf (s : State) : (stepCollision s).2.blk.buf = s.blk.buf := by
  rcases hd : Machine.discard s with ⟨r, t⟩
  have ht := congrArg Block.buf (discard_same hd).blk
  cases r with
  | count k => by_cases hk : 0 < k <;> simp [stepCollision, hd, hk, ht]
  | err | outOfRange => simp [stepCollision, hd, ht]

theorem stepSilence_buf (threshold now : Nat) (s : State) :
    (stepSilence threshold now s).2.blk.buf = s.blk.buf := by
  rcases hd : Machine.discard s with ⟨r, t⟩
  have ht := congrArg Block.buf (discard_same hd).blk
  cases r with
  | count k =>
    by_cases hk : 0 < k
    · simp [stepSilence, hd, hk, ht]
    · by_cases he : threshold ≤ elapsed t.cfg t.blk.tRef now <;> simp [stepSilence, hd, hk, he, ht]
  | err | outOfRange => simp [stepSilence, hd, ht]

/-- The address byte is no cell of the PDU: IDLE takes it into `S.faddr`. -/
theorem rtuIdle_buf (now : Nat) (s : State) : (rtuIdle now s).2.blk.buf = s.blk.buf := by
  rcases hr : read1 s with ⟨r, t⟩
  have ht := congrArg Block.buf (read1_same hr).blk
  cases r with
  | byte a => by_cases ha : accept t.blk.station a <;> simp [rtuIdle, hr, ha, ht]
  | nothing | err | outOfRange => simp [rtuIdle, hr, ht]

theorem asciiIdle_buf (now : Nat) (s : State) : (asciiIdle now s).2.blk.buf = s.blk.buf := by
  rcases hr : read1 s with ⟨r, t⟩
  have ht := congrArg Block.buf (read1_same hr).blk
  cases r with
  | byte c => by_cases hc : c = 0x3A#8 <;> simp [asciiIdle, asciiStart, hr, hc, ht]
  | nothing | err | outOfRange => simp [asciiIdle, hr, ht]

theorem rtuTxAddress_buf (k : Nat) (s : State) : (rtuTxAddress k s).2.blk.buf = s.blk.buf := by
  rcases hw : write [s.blk.faddr] s with ⟨r, t⟩
  have ht := congrArg Block.buf (write_same hw).blk
  cases r with
  | accepted w => by_cases h0 : w = 0 <;> simp [rtuTxAddress, hw, h0, ht]
  | err | outOfRange => simp [rtuTxAddress, hw, raiseFatal, ht]

theorem rtuTxPdu_buf (k : Nat) (s : State) : (rtuTxPdu k s).2.blk.buf = s.blk.buf := by
  by_cases hp : s.blk.txPos = s.blk.len
  · simp [rtuTxPdu, hp]
  · rcases hw : write (s.cells s.blk.txPos s.blk.len) s.draw with ⟨r, t⟩
    have ht : t.blk.buf = s.blk.buf := congrArg Block.buf (write_same hw).blk
    cases r with
    | accepted w => by_cases h0 : w = 0 <;> simp [rtuTxPdu, hp, hw, h0, ht]
    | err | outOfRange => simp [rtuTxPdu, hp, hw, raiseFatal, ht]

theorem rtuTxChecksum_buf (k : Nat) (s : State) : (rtuTxChecksum k s).2.blk.buf = s.blk.buf := by
  by_cases hp : s.blk.txPos = 2
  · simp [rtuTxChecksum, hp]
  · rcases hw : write ((crcBytes s.blk.crc).drop s.blk.txPos) s with ⟨r, t⟩
    have ht := congrArg Block.buf (write_same hw).blk
    cases r with
    | accepted w => by_cases h0 : w = 0 <;> simp [rtuTxChecksum, hp, hw, h0, ht]
    | err | outOfRange => simp [rtuTxChecksum, hp, hw, raiseFatal, ht]

theorem txDrain_buf (x : St) (now k : Nat) (s : State) :
    (txDrain x now k s).2.blk.buf = s.blk.buf := by
  rcases hw : writeComplete s with ⟨b, t⟩
  have ht := congrArg Block.buf (writeComplete_same hw).blk
  cases b <;> simp [txDrain, hw, ht]

/-- A character phase leaves the buffer alone where its exit and its accepted characters do. -/
theorem phaseWrite_buf {seq : List Byte} {next : St} {exit : Block → Block}
    {accepted : Nat → Block → Block} (hexit : ∀ b, (exit b).buf = b.buf)
    (haccepted : ∀ w b, (accepted w b).buf = b.buf) (k : Nat) (s : State) :
    (phaseWrite seq next exit accepted k s).2.blk.buf = s.blk.buf := by
  by_cases hp : s.blk.txPos = seq.length
  · simp [phaseWrite, hp, hexit]
  · rcases hw : write (seq.drop s.blk.txPos) s with ⟨r, t⟩
    have ht := congrArg Block.buf (write_same hw).blk
    cases r with
    | accepted w => by_cases h0 : w = 0 <;> simp [phaseWrite, hp, hw, h0, haccepted, ht]
    | err | outOfRange => simp [phaseWrite, hp, hw, raiseFatal, ht]

theorem asciiTxStart_buf (k : Nat) (s : State) : (asciiTxStart k s).2.blk.buf = s.blk.buf :=
  phaseWrite_buf (by intros; rfl) (by intros; rfl) k s

theorem asciiTxAddress_buf (k : Nat) (s : State) : (asciiTxAddress k s).2.blk.buf = s.blk.buf :=
  phaseWrite_buf (by intros; rfl) (by intros; rfl) k s

theorem asciiTxPdu_buf (k : Nat) (s : State) : (asciiTxPdu k s).2.blk.buf = s.blk.buf :=
  phaseWrite_buf (by intros; rfl) (by intros; rfl) k s.draw

theorem asciiTxChecksum_buf (k : Nat) (s : State) : (asciiTxChecksum k s).2.blk.buf = s.blk.buf :=
  phaseWrite_buf (by intros; rfl) (by intros; rfl) k s

theorem asciiTxEnd_buf (k : Nat) (s : State) : (asciiTxEnd k s).2.blk.buf = s.blk.buf :=
  phaseWrite_buf (by intros; rfl) (by intros; rfl) k s

/-- The echo discard and its abort leave the buffer alone, so a transmit rule does where its phase does. -/
theorem stepTransmit_buf {phase : Nat → State → StepAnswer × State}
    (hphase : ∀ k u, (phase k u).2.blk.buf = u.blk.buf) (x : St) (now : Nat) (s : State) :
    (stepTransmit x now phase s).2.blk.buf = s.blk.buf := by
  rcases hd : Machine.discard s with ⟨r, t⟩
  have ht := congrArg Block.buf (discard_same hd).blk
  cases r with
  | count k => simp [stepTransmit, hd, hphase, ht]
  | err | outOfRange => simp [stepTransmit, hd, abortTransmit, ht]

theorem stepRtu_buf_of_holder_ne (now : Nat) {s : State} (hs : s.blk.st.holder ≠ .reception) :
    (stepRtu now s).2.blk.buf = s.blk.buf := by
  unfold stepRtu
  cases hst : s.blk.st
  case dump => exact stepSilence_buf _ now s
  case idle => exact rtuIdle_buf now s
  case txAddress => exact stepTransmit_buf rtuTxAddress_buf .dump now s
  case txPdu => exact stepTransmit_buf rtuTxPdu_buf .dump now s
  case txChecksum => exact stepTransmit_buf rtuTxChecksum_buf .dump now s
  case txDrain => exact stepTransmit_buf (txDrain_buf .dump now) .dump now s
  case receive => simp [hst, St.holder] at hs
  all_goals rfl

theorem stepAscii_buf_of_holder_ne (now : Nat) {s : State} (hs : s.blk.st.holder ≠ .reception) :
    (stepAscii now s).2.blk.buf = s.blk.buf := by
  unfold stepAscii
  cases hst : s.blk.st
  case idle => exact asciiIdle_buf now s
  case txStart => exact stepTransmit_buf asciiTxStart_buf .idle now s
  case txAddress => exact stepTransmit_buf asciiTxAddress_buf .idle now s
  case txPdu => exact stepTransmit_buf asciiTxPdu_buf .idle now s
  case txChecksum => exact stepTransmit_buf asciiTxChecksum_buf .idle now s
  case txEnd => exact stepTransmit_buf asciiTxEnd_buf .idle now s
  case txDrain => exact stepTransmit_buf (txDrain_buf .txGuard now) .idle now s
  case txGuard => exact stepSilence_buf _ now s
  case rxAddrHi | rxAddrLo | rxDataHi | rxDataLo | rxLf => simp [hst, St.holder] at hs
  all_goals rfl

theorem stepState_buf_of_holder_ne (now : Nat) {s : State} (hs : s.blk.st.holder ≠ .reception) :
    (stepState now s).2.blk.buf = s.blk.buf := by
  unfold stepState
  cases s.blk.st
  case exception => rfl
  case frameReady | queue => exact stepHeld_buf s
  case collision => exact stepCollision_buf s
  all_goals
    cases s.cfg.mode
    · exact stepRtu_buf_of_holder_ne now hs
    · exact stepAscii_buf_of_holder_ne now hs

/-- R33 for the engine: a micro-step touches the buffer only while reception holds it. The frame-ready
callback is no exception: it runs at the end of a reception. -/
theorem microStep_buf_of_holder_ne {s : State} (hs : s.blk.st.holder ≠ .reception) :
    (microStep s).2.blk.buf = s.blk.buf := by
  have hsame : s.sampled.blk = s.blk := (sampled_same s).blk
  have hstep := stepState_buf_of_holder_ne s.now (hsame ▸ hs)
  rw [hsame] at hstep
  rw [microStep_eq]
  rcases h : stepState s.now s.sampled with ⟨a, t⟩
  rw [h] at hstep
  cases a with
  | again | done d => exact (statusUpdate_buf t).trans hstep
  | refused => rfl

/-! ### The obligation -/

/-- Settles O59: each half is the contrapositive of a frame lemma, for the host's rows and for the
micro-step. -/
theorem bufferWrittenByItsHolder : Obligations.BufferWrittenByItsHolder := by
  refine ⟨fun i s t hi hp hr h hbuf => ?_, fun s t a h hbuf => ?_⟩
  · by_contra hs
    exact hbuf (exec_buf_of_holder_ne hi hp hr hs h)
  · by_contra hs
    have hm := microStep_buf_of_holder_ne hs
    rw [h] at hm
    exact hbuf hm

end Sys2Proof.Machine
end

section
/-! PROOF of O4: refused command words (30_encoding.md R141). First what each argument reader accepts: the
layout of its argument (R140), ahead of any bytes; then that the command table accepts exactly the encodings
of well-formed commands, ahead of any bytes; then the refusals. -/

namespace Sys2Proof

/-! ### Argument layouts -/

@[simp] theorem be16_hiByte_loByte (v : U16) : be16 (hiByte v) (loByte v) = v :=
  (BitVec.extractLsb'_append_extractLsb'_eq_extractLsb' rfl).trans BitVec.extractLsb'_eq_self

@[simp] theorem be16Bytes_be16 (hi lo : Byte) : be16Bytes (be16 hi lo) = [hi, lo] := by
  have hhi : hiByte (be16 hi lo) = hi := BitVec.extractLsb'_append_eq_left
  have hlo : loByte (be16 hi lo) = lo := BitVec.extractLsb'_append_eq_right
  rw [be16Bytes, hhi, hlo]

theorem be32_extractLsb' (v : U32) :
    be32 (v.extractLsb' 24 8) (v.extractLsb' 16 8) (v.extractLsb' 8 8) (v.extractLsb' 0 8) = v := by
  have h₁ : v.extractLsb' 24 8 ++ v.extractLsb' 16 8 = v.extractLsb' 16 16 :=
    BitVec.extractLsb'_append_extractLsb'_eq_extractLsb' rfl
  have h₂ : v.extractLsb' 16 16 ++ v.extractLsb' 8 8 = v.extractLsb' 8 24 :=
    BitVec.extractLsb'_append_extractLsb'_eq_extractLsb' rfl
  have h₃ : v.extractLsb' 8 24 ++ v.extractLsb' 0 8 = v.extractLsb' 0 32 :=
    BitVec.extractLsb'_append_extractLsb'_eq_extractLsb' rfl
  rw [be32, h₁, h₂, h₃, BitVec.extractLsb'_eq_self]

@[simp] theorem be32Bytes_be32 (a b c d : Byte) : be32Bytes (be32 a b c d) = [a, b, c, d] := by
  have hd : (be32 a b c d).extractLsb' 0 8 = d := BitVec.extractLsb'_append_eq_right
  have hc : (be32 a b c d).extractLsb' 8 8 = c :=
    (BitVec.extractLsb'_append_eq_of_le (by decide)).trans BitVec.extractLsb'_append_eq_right
  have hb : (be32 a b c d).extractLsb' 16 8 = b :=
    (BitVec.extractLsb'_append_eq_of_le (by decide)).trans
      ((BitVec.extractLsb'_append_eq_of_le (by decide)).trans BitVec.extractLsb'_append_eq_right)
  have ha : (be32 a b c d).extractLsb' 24 8 = a :=
    (BitVec.extractLsb'_append_eq_of_le (by decide)).trans
      ((BitVec.extractLsb'_append_eq_of_le (by decide)).trans BitVec.extractLsb'_append_eq_left)
  rw [be32Bytes, ha, hb, hc, hd]

/-! ### The argument readers: what each reads, and that it accepts nothing else -/

theorem takeU16_be16Bytes (v : U16) (rest : List Byte) (k : U16 → List Byte → Taken) :
    takeU16 (be16Bytes v ++ rest) k = k v rest := by
  simp [takeU16, be16Bytes]

theorem takeU32_be32Bytes (v : U32) (rest : List Byte) (k : U32 → Instr) :
    takeU32 (be32Bytes v ++ rest) k = .instr (k v) rest := by
  simp [takeU32, be32Bytes, be32_extractLsb']

theorem takeBytes_lengthPrefixed {bytes : List Byte} (hfit : fitsLengthField bytes = true)
    (rest : List Byte) (k : List Byte → Instr) :
    takeBytes (lengthPrefixed bytes ++ rest) k = .instr (k bytes) rest := by
  have hlen : bytes.length % 2 ^ 16 = bytes.length := Nat.mod_eq_of_lt (of_decide_eq_true hfit)
  rw [takeBytes, lengthPrefixed, List.append_assoc, takeU16_be16Bytes, BitVec.toNat_ofNat, hlen]
  simp

theorem of_takeByte_eq_instr {args rest : List Byte} {k : Byte → Instr} {i : Instr}
    (h : takeByte args k = .instr i rest) : ∃ a, args = a :: rest ∧ i = k a := by
  match args with
  | [] => cases h
  | a :: _ => cases h; exact ⟨a, rfl, rfl⟩

theorem of_takeU16_eq_instr {args rest : List Byte} {k : U16 → List Byte → Taken} {i : Instr}
    (h : takeU16 args k = .instr i rest) :
    ∃ v tail, args = be16Bytes v ++ tail ∧ k v tail = .instr i rest := by
  match args with
  | [] | [_] => cases h
  | a :: b :: tail => exact ⟨be16 a b, tail, by simp, h⟩

theorem of_takeU32_eq_instr {args rest : List Byte} {k : U32 → Instr} {i : Instr}
    (h : takeU32 args k = .instr i rest) : ∃ v, args = be32Bytes v ++ rest ∧ i = k v := by
  match args with
  | [] | [_] | [_, _] | [_, _, _] => cases h
  | a :: b :: c :: d :: _ => cases h; exact ⟨be32 a b c d, by simp, rfl⟩

theorem of_takeBytes_eq_instr {args rest : List Byte} {k : List Byte → Instr} {i : Instr}
    (h : takeBytes args k = .instr i rest) :
    ∃ bytes, args = lengthPrefixed bytes ++ rest ∧ fitsLengthField bytes = true ∧ i = k bytes := by
  rw [takeBytes] at h
  obtain ⟨n, tail, rfl, hk⟩ := of_takeU16_eq_instr h
  by_cases hn : tail.length < n.toNat
  · rw [if_pos hn] at hk
    cases hk
  · rw [if_neg hn] at hk
    cases hk
    have hlen : (tail.take n.toNat).length = n.toNat := List.length_take_of_le (by omega)
    exact ⟨tail.take n.toNat, by simp [lengthPrefixed, hlen],
      by simpa [fitsLengthField, hlen] using n.isLt, rfl⟩

/-! ### The command table accepts exactly the encodings of well-formed commands -/

theorem takeCommand_reserved {c : Byte} (hc : 0x15 ≤ c.toNat) (args : List Byte) :
    takeCommand (c :: args) = .instr (.reservedCommand c) args := by
  unfold takeCommand
  simp only
  split
  any_goals omega
  rfl

/-! The four rows that begin with a 16-bit argument. -/

theorem takeCommand_bufferRead (args : List Byte) :
    takeCommand (0x0A#8 :: args) = takeU16 args fun i rest => .instr (.bufferRead i) rest := rfl

theorem takeCommand_bufferWrite (args : List Byte) :
    takeCommand (0x0B#8 :: args) = takeU16 args fun i rest => takeByte rest (.bufferWrite i) := rfl

theorem takeCommand_setBufferLen (args : List Byte) :
    takeCommand (0x0D#8 :: args) = takeU16 args fun n rest => .instr (.setBufferLen n) rest := rfl

theorem takeCommand_crc16Update (args : List Byte) :
    takeCommand (0x10#8 :: args) = takeU16 args fun acc rest => takeBytes rest (.crc16Update acc) :=
  rfl

theorem takeCommand_encode {i : Instr} (hsp : i.space = .command) (hwf : i.wellFormed = true)
    (rest : List Byte) : takeCommand (encode i ++ rest) = .instr i rest := by
  cases i
  case reservedCommand c => exact takeCommand_reserved (of_decide_eq_true hwf) rest
  case bufferRead v => exact (takeCommand_bufferRead _).trans (takeU16_be16Bytes v rest _)
  case bufferWrite v b => exact (takeCommand_bufferWrite _).trans (takeU16_be16Bytes v (b :: rest) _)
  case setBufferLen n => exact (takeCommand_setBufferLen _).trans (takeU16_be16Bytes n rest _)
  case setup v => exact takeU32_be32Bytes v rest _
  case crc16 | lrc | lrcUpdate => exact takeBytes_lengthPrefixed hwf rest _
  case crc16Update acc bytes =>
    calc takeCommand (encode (.crc16Update acc bytes) ++ rest)
        = takeU16 (be16Bytes acc ++ (lengthPrefixed bytes ++ rest))
            fun acc rest => takeBytes rest (.crc16Update acc) := takeCommand_crc16Update _
      _ = takeBytes (lengthPrefixed bytes ++ rest) (.crc16Update acc) := takeU16_be16Bytes _ _ _
      _ = .instr (.crc16Update acc bytes) rest := takeBytes_lengthPrefixed hwf _ _
  case reset | poll | beginSend | send | finished | stationAddress | setStationAddress | frameReady
      | frameAddress | setFrameAddress | bufferLen | bufferMax | dispatch => rfl
  all_goals cases hsp

/-- The rows of R140 by command byte. -/
theorem of_takeCommand_eq_instr {bytes rest : List Byte} {i : Instr}
    (h : takeCommand bytes = .instr i rest) :
    i.space = .command ∧ i.wellFormed = true ∧ bytes = encode i ++ rest := by
  cases bytes with
  | nil => cases h
  | cons c args =>
    by_cases hc : 0x15 ≤ c.toNat
    · rw [takeCommand_reserved hc] at h
      cases h
      exact ⟨rfl, decide_eq_true hc, rfl⟩
    · obtain ⟨n, hn, rfl⟩ : ∃ n, n < 0x15 ∧ c = BitVec.ofNat 8 n := ⟨c.toNat, by omega, by simp⟩
      clear hc
      match n, hn, h with
      | 0x00, _, h | 0x01, _, h | 0x02, _, h | 0x03, _, h | 0x04, _, h | 0x05, _, h | 0x07, _, h
      | 0x08, _, h | 0x0C, _, h | 0x0E, _, h | 0x14, _, h => cases h; exact ⟨rfl, rfl, rfl⟩
      | 0x06, _, h | 0x09, _, h =>
        obtain ⟨a, rfl, rfl⟩ := of_takeByte_eq_instr h
        exact ⟨rfl, rfl, rfl⟩
      | 0x0A, _, h =>
        obtain ⟨v, tail, rfl, hk⟩ := of_takeU16_eq_instr ((takeCommand_bufferRead _).symm.trans h)
        cases hk
        exact ⟨rfl, rfl, rfl⟩
      | 0x0D, _, h =>
        obtain ⟨v, tail, rfl, hk⟩ := of_takeU16_eq_instr ((takeCommand_setBufferLen _).symm.trans h)
        cases hk
        exact ⟨rfl, rfl, rfl⟩
      | 0x0B, _, h =>
        obtain ⟨v, tail, rfl, hk⟩ := of_takeU16_eq_instr ((takeCommand_bufferWrite _).symm.trans h)
        obtain ⟨b, rfl, rfl⟩ := of_takeByte_eq_instr hk
        exact ⟨rfl, rfl, rfl⟩
      | 0x0F, _, h =>
        obtain ⟨v, rfl, rfl⟩ := of_takeU32_eq_instr h
        exact ⟨rfl, rfl, rfl⟩
      | 0x10, _, h =>
        obtain ⟨acc, tail, rfl, hk⟩ :=
          of_takeU16_eq_instr ((takeCommand_crc16Update _).symm.trans h)
        obtain ⟨bytes, rfl, hfit, rfl⟩ := of_takeBytes_eq_instr hk
        exact ⟨rfl, hfit, rfl⟩
      | 0x11, _, h | 0x13, _, h =>
        obtain ⟨bytes, rfl, hfit, rfl⟩ := of_takeBytes_eq_instr h
        exact ⟨rfl, hfit, rfl⟩
      | 0x12, _, h =>
        match args with
        | [] => cases h
        | acc :: tail =>
          obtain ⟨bytes, rfl, hfit, rfl⟩ := of_takeBytes_eq_instr h
          exact ⟨rfl, hfit, rfl⟩
      | n + 0x15, hn, _ => omega

theorem decodeCommand_eq_ok_iff_takeCommand {bytes : List Byte} {i : Instr} :
    decodeCommand bytes = .ok i ↔ takeCommand bytes = .instr i [] := by
  unfold decodeCommand
  rcases takeCommand bytes with ⟨j, _ | ⟨b, rest⟩⟩ | e <;> simp

/-- Decoding and encoding of command words agree, both ways (R140). -/
theorem decodeCommand_eq_ok_iff {bytes : List Byte} {i : Instr} :
    decodeCommand bytes = .ok i ↔
      i.space = .command ∧ i.wellFormed = true ∧ bytes = encode i := by
  rw [decodeCommand_eq_ok_iff_takeCommand]
  constructor
  · intro h
    simpa using of_takeCommand_eq_instr h
  · rintro ⟨hsp, hwf, rfl⟩
    simpa using takeCommand_encode hsp hwf []

/-- No command word begins another: the table would read the longer one both with and
without bytes left over. -/
theorem decodeCommand_ne_ok_of_append {i j : Instr} {p q : List Byte} (hsp : i.space = .command)
    (hwf : i.wellFormed = true) (hpq : encode i = p ++ q) (hq : q ≠ []) :
    decodeCommand p ≠ .ok j := by
  intro h
  obtain ⟨hsp', hwf', rfl⟩ := decodeCommand_eq_ok_iff.1 h
  have hshort : takeCommand (encode i) = .instr j q := hpq ▸ takeCommand_encode hsp' hwf' q
  have hwhole : takeCommand (encode i) = .instr i [] := by simpa using takeCommand_encode hsp hwf []
  rw [hwhole] at hshort
  cases hshort
  exact hq rfl

theorem decodeCommand_take_error {i : Instr} {k : Nat} (hsp : i.space = .command)
    (hwf : i.wellFormed = true) (hk : k < (encode i).length) :
    ∃ e, decodeCommand ((encode i).take k) = .error e := by
  cases h : decodeCommand ((encode i).take k) with
  | error e => exact ⟨e, rfl⟩
  | ok j =>
    have hrest : (encode i).drop k ≠ [] := by simpa using hk
    exact absurd h
      (decodeCommand_ne_ok_of_append hsp hwf (List.take_append_drop k (encode i)).symm hrest)

end Sys2Proof

namespace Sys2Proof.Machine

/-! ### The refusals -/

theorem exec_bufferRead_outOfRange {s : State} {i : U16} (hi : s.cfg.bufferMax ≤ i.toNat) :
    exec (.bufferRead i) s = .next s.markRefused := if_pos hi

theorem exec_bufferWrite_outOfRange {s : State} {i : U16} (v : Byte)
    (hi : s.cfg.bufferMax ≤ i.toNat) : exec (.bufferWrite i v) s = .next s.markRefused := if_pos hi

theorem exec_setBufferLen_outOfRange {s : State} {n : U16} (hn : s.cfg.bufferMax < n.toNat) :
    exec (.setBufferLen n) s = .next s.markRefused := if_pos hn

theorem exec_setup_baudZero (s : State) : exec (.setup 0#32) s = .next s.markRefused := rfl

/-- A word the decoder rejects is taken from the inputs and marks the state refused. -/
theorem step_of_decodeCommand_error {s : State} {bytes : List Byte} {rest : List Input}
    {e : DecodeError} (hp : s.polling = false) (hin : s.env.inputs = .word bytes :: rest)
    (he : decodeCommand bytes = .error e) :
    step s = .next (s.setEnv { s.env with inputs := rest }).markRefused := by
  simp [step, hp, hin, he, State.dropInput]

/-- Settles O4. A command word cut short is refused because no command word begins another, and a byte
string the decoder takes is an encoding because the table accepts nothing else. -/
theorem refusedCommandWords : Obligations.RefusedCommandWords := by
  intro s
  refine ⟨fun c hc => ⟨?reserved, rfl⟩, fun i k hsp hwf hk => decodeCommand_take_error hsp hwf hk,
    fun i hi => exec_bufferRead_outOfRange hi, fun i v hi => exec_bufferWrite_outOfRange v hi,
    fun n hn => exec_setBufferLen_outOfRange hn, exec_setup_baudZero s,
    fun bytes rest hp hin => ?total⟩
  case reserved => exact decodeCommand_eq_ok_iff.2 ⟨rfl, decide_eq_true hc, rfl⟩
  case total =>
    cases hd : decodeCommand bytes with
    | ok i =>
      obtain ⟨-, -, rfl⟩ := decodeCommand_eq_ok_iff.1 hd
      exact .inl ⟨i, rfl, rfl⟩
    | error e => exact .inr (step_of_decodeCommand_error hp hin hd)

end Sys2Proof.Machine
end

section
/-! PROOF of O7, O9 and O10: the checksum engines (40_checksum.md). A chunk law for each accumulator; CRC-16
as an injective register on which 8 right shifts of a word with a clear low byte are one shift by 8; then the
values of the four commands. -/

namespace Sys2Proof.Machine

/-! ### Chunks -/

theorem crcUpdate_append (c : U16) (s t : List Byte) :
    crcUpdate c (s ++ t) = crcUpdate (crcUpdate c s) t := by
  induction s generalizing c with
  | nil => rfl
  | cons b s ih => exact ih (crcByte c b)

theorem lrcUpdate_append (a : Byte) (s t : List Byte) :
    lrcUpdate a (s ++ t) = lrcUpdate (lrcUpdate a s) t := by
  induction s generalizing a with
  | nil => rfl
  | cons b s ih => exact ih (a + b)

/-- Settles O9, by induction on the first chunk. -/
theorem chunking : Obligations.Chunking := ⟨crcUpdate_append, lrcUpdate_append⟩

/-! ### The CRC register -/

theorem crcShift_of_low_clear {c : U16} (h : c.getLsbD 0 = false) : crcShift c = c >>> 1 :=
  if_neg (Bool.eq_false_iff.1 h)

theorem crcShift_of_low_set {c : U16} (h : c.getLsbD 0 = true) :
    crcShift c = (c >>> 1) ^^^ 0xA001#16 := if_pos h

/-- Bit 15 of 0xA001 is set, so the bit shifted out comes back on top. -/
theorem getLsbD_crcShift_15 (c : U16) : (crcShift c).getLsbD 15 = c.getLsbD 0 := by
  cases h : c.getLsbD 0 with
  | false => simp [crcShift_of_low_clear h]
  | true => simp [crcShift_of_low_set h]

theorem crcShift_injective : Function.Injective crcShift := by
  intro c d h
  have hlow : c.getLsbD 0 = d.getLsbD 0 := by
    rw [← getLsbD_crcShift_15 c, h, getLsbD_crcShift_15]
  have hshift : c >>> 1 = d >>> 1 := by
    cases hd : d.getLsbD 0 with
    | false => rwa [crcShift_of_low_clear (hlow.trans hd), crcShift_of_low_clear hd] at h
    | true =>
      rwa [crcShift_of_low_set (hlow.trans hd), crcShift_of_low_set hd, BitVec.xor_left_inj] at h
  refine BitVec.eq_of_getLsbD_eq fun i _ => ?_
  cases i with
  | zero => exact hlow
  | succ j => simpa [Nat.add_comm] using congrArg (BitVec.getLsbD · j) hshift

theorem crcShifts_injective (n : Nat) : Function.Injective (crcShifts n) := by
  induction n with
  | zero => exact Function.injective_id
  | succ n ih => exact ih.comp crcShift_injective

theorem crcShifts_eq_ushiftRight {n : Nat} {c : U16} (h : ∀ i < n, c.getLsbD i = false) :
    crcShifts n c = c >>> n := by
  induction n generalizing c with
  | zero => rfl
  | succ n ih =>
    have hrest : ∀ i < n, (c >>> 1).getLsbD i = false := fun i hi => by
      simpa [Nat.add_comm] using h (i + 1) (Nat.succ_lt_succ hi)
    calc crcShifts (n + 1) c = crcShifts n (c >>> 1) :=
        congrArg (crcShifts n) (crcShift_of_low_clear (h 0 n.succ_pos))
      _ = c >>> 1 >>> n := ih hrest
      _ = c >>> (n + 1) := by rw [← BitVec.shiftRight_add, Nat.add_comm]

theorem getLsbD_be16 (hi lo : Byte) (i : Nat) :
    (be16 hi lo).getLsbD i = if i < 8 then lo.getLsbD i else hi.getLsbD (i - 8) :=
  BitVec.getLsbD_append

theorem crcShifts_be16_zero (b : Byte) : crcShifts 8 (be16 b 0#8) = b.setWidth 16 := by
  have hclear : ∀ i < 8, (be16 b 0#8).getLsbD i = false := fun i hi => by
    simp [getLsbD_be16, hi]
  rw [crcShifts_eq_ushiftRight hclear]
  refine BitVec.eq_of_getLsbD_eq fun i hi => ?_
  simp [getLsbD_be16, hi]

theorem be16_xor_setWidth (hi lo : Byte) : be16 hi lo ^^^ lo.setWidth 16 = be16 hi 0#8 := by
  refine BitVec.eq_of_getLsbD_eq fun i hi => ?_
  rw [BitVec.getLsbD_xor, getLsbD_be16, getLsbD_be16]
  by_cases h : i < 8
  · simp [h, hi]
  · simp [h, BitVec.getLsbD_of_ge lo i (Nat.le_of_not_lt h)]

theorem eq_be16_iff (c : U16) (hi lo : Byte) :
    c = be16 hi lo ↔ lo = loByte c ∧ hi = hiByte c := by
  constructor
  · rintro rfl
    exact ⟨BitVec.extractLsb'_append_eq_right.symm, BitVec.extractLsb'_append_eq_left.symm⟩
  · rintro ⟨rfl, rfl⟩
    exact (be16_hiByte_loByte c).symm

/-- `be16 hi lo` is one register that leaves `hi`, because `lo` clears its low byte; by injectivity it is
the only one. -/
theorem crcByte_eq_setWidth_iff (c : U16) (lo hi : Byte) :
    crcByte c lo = hi.setWidth 16 ↔ lo = loByte c ∧ hi = hiByte c :=
  calc crcShifts 8 (c ^^^ lo.setWidth 16) = hi.setWidth 16
    _ ↔ crcShifts 8 (c ^^^ lo.setWidth 16) = crcShifts 8 (be16 hi lo ^^^ lo.setWidth 16) := by
        rw [be16_xor_setWidth, crcShifts_be16_zero]
    _ ↔ c = be16 hi lo := (crcShifts_injective 8).eq_iff.trans (BitVec.xor_left_inj _)
    _ ↔ lo = loByte c ∧ hi = hiByte c := eq_be16_iff c hi lo

theorem crcByte_eq_zero_iff (c : U16) (b : Byte) : crcByte c b = 0#16 ↔ c = b.setWidth 16 :=
  calc crcShifts 8 (c ^^^ b.setWidth 16) = crcShifts 8 0#16
    _ ↔ c ^^^ b.setWidth 16 = 0#16 := (crcShifts_injective 8).eq_iff
    _ ↔ c = b.setWidth 16 := BitVec.xor_eq_zero_iff

theorem crcUpdate_pair_eq_zero_iff (c : U16) (lo hi : Byte) :
    crcUpdate c [lo, hi] = 0#16 ↔ lo = loByte c ∧ hi = hiByte c :=
  (crcByte_eq_zero_iff (crcByte c lo) hi).trans (crcByte_eq_setWidth_iff c lo hi)

/-- Settles O7: the chunk law leaves the two bytes after `s`, and the register is injective. -/
theorem crcAppend : Obligations.CrcAppend := by
  intro s lo hi
  rw [crcUpdate_append]
  exact crcUpdate_pair_eq_zero_iff (crc16 s) lo hi

/-! ### The values of the commands -/

theorem crcShifts_length_eq_foldl {α : Type} (l : List α) (c : U16) :
    crcShifts l.length c = l.foldl (fun c _ => crcShift c) c := by
  induction l generalizing c with
  | nil => rfl
  | cons _ l ih => exact ih (crcShift c)

theorem crcUpdate_eq_foldl_range (c : U16) (bs : List Byte) :
    crcUpdate c bs = bs.foldl
      (fun c b => (List.range 8).foldl (fun c _ => crcShift c) (c ^^^ b.setWidth 16)) c := by
  induction bs generalizing c with
  | nil => rfl
  | cons b bs ih =>
    have hbyte : crcByte c b
        = (List.range 8).foldl (fun c _ => crcShift c) (c ^^^ b.setWidth 16) :=
      crcShifts_length_eq_foldl (List.range 8) _
    rw [crcUpdate, ih, hbyte, List.foldl_cons]

theorem lrcUpdate_eq_ofNat_sum (a : Byte) (bs : List Byte) :
    lrcUpdate a bs = BitVec.ofNat 8 ((a.toNat + (bs.map BitVec.toNat).sum) % 256) := by
  induction bs generalizing a with
  | nil => exact BitVec.eq_of_toNat_eq (by simp [lrcUpdate, Nat.mod_eq_of_lt a.isLt])
  | cons b bs ih =>
    rw [lrcUpdate, ih]
    exact BitVec.eq_of_toNat_eq (by simp [Nat.add_assoc])

theorem lrc_eq_ofNat_sum (bs : List Byte) :
    lrc bs = BitVec.ofNat 8 ((256 - (bs.map BitVec.toNat).sum % 256) % 256) := by
  rw [lrc, negate8, lrcUpdate_eq_ofNat_sum]
  exact BitVec.eq_of_toNat_eq (by simp)

theorem exec_crc16Update (acc : U16) (bytes : List Byte) (s : State) :
    exec (.crc16Update acc bytes) s = .next (s.setResult (.u16 (crcUpdate acc bytes))) := rfl

theorem exec_crc16 (bytes : List Byte) (s : State) :
    exec (.crc16 bytes) s = .next (s.setResult (.u16 (crcUpdate 0xFFFF#16 bytes))) := rfl

theorem exec_lrcUpdate (acc : Byte) (bytes : List Byte) (s : State) :
    exec (.lrcUpdate acc bytes) s = .next (s.setResult (.u8 (lrcUpdate acc bytes))) := rfl

theorem exec_lrc (bytes : List Byte) (s : State) :
    exec (.lrc bytes) s = .next (s.setResult (.u8 (lrc bytes))) := rfl

/-- Settles O10, from what each command answers and the closed forms of the two accumulators. -/
theorem checksumCommands : Obligations.ChecksumCommands := by
  refine fun bytes s => ⟨fun acc => ?_, ?_, fun acc => ?_, ?_⟩
  · simp only [exec_crc16Update, crcUpdate_eq_foldl_range, crcShift]
  · simp only [exec_crc16, crcUpdate_eq_foldl_range, crcShift]
  · rw [exec_lrcUpdate, lrcUpdate_eq_ofNat_sum]
  · rw [exec_lrc, lrc_eq_ofNat_sum]

end Sys2Proof.Machine
end

section
/-! PROOF of O11 and O12: the hex codec (40_checksum.md R168, R169) and elapsed time (R164). -/

namespace Sys2Proof

/-! ### Hex digits -/

theorem hexval_of_digit09 {c : Byte} (hlo : 0x30 ≤ c.toNat) (hhi : c.toNat ≤ 0x39) :
    hexval c = some (BitVec.ofNat 4 (c.toNat - 0x30)) := by
  simp [hexval, isDigit09, hlo, hhi]

theorem hexval_of_digitUpper {c : Byte} (hlo : 0x41 ≤ c.toNat) (hhi : c.toNat ≤ 0x46) :
    hexval c = some (BitVec.ofNat 4 (c.toNat - 0x37)) := by
  have h09 : ¬ c.toNat ≤ 0x39 := by omega
  simp [hexval, isDigit09, isDigitUpper, h09, hlo, hhi]

theorem hexval_of_digitLower {c : Byte} (hlo : 0x61 ≤ c.toNat) (hhi : c.toNat ≤ 0x66) :
    hexval c = some (BitVec.ofNat 4 (c.toNat - 0x57)) := by
  have h09 : ¬ c.toNat ≤ 0x39 := by omega
  have hupper : ¬ c.toNat ≤ 0x46 := by omega
  simp [hexval, isDigit09, isDigitUpper, isDigitLower, h09, hupper, hlo, hhi]

theorem hexval_eq_none {c : Byte} (h09 : isDigit09 c = false) (hupper : isDigitUpper c = false)
    (hlower : isDigitLower c = false) : hexval c = none := by
  simp [hexval, h09, hupper, hlower]

@[simp] theorem hexval_hexchar (n : BitVec 4) : hexval (hexchar n) = some n := by
  revert n; decide

theorem hexchar_toNat (n : BitVec 4) :
    (hexchar n).toNat = if n.toNat < 10 then 0x30 + n.toNat else 0x37 + n.toNat := by
  revert n; decide

theorem hex2_eq (b : Byte) :
    hex2 b
      = [hexchar (BitVec.ofNat 4 (b.toNat / 16)), hexchar (BitVec.ofNat 4 (b.toNat % 16))] := by
  have hhi : b.extractLsb' 4 4 = BitVec.ofNat 4 (b.toNat / 16) :=
    BitVec.eq_of_toNat_eq (by simp [Nat.shiftRight_eq_div_pow])
  have hlo : b.extractLsb' 0 4 = BitVec.ofNat 4 (b.toNat % 16) := BitVec.eq_of_toNat_eq (by simp)
  rw [hex2, hhi, hlo]

theorem map_toNat_some_ofNat {k : Nat} (h : k < 16) :
    (some (BitVec.ofNat 4 k)).map BitVec.toNat = some k :=
  congrArg some (Nat.mod_eq_of_lt h)

end Sys2Proof

namespace Sys2Proof.Machine

/-- Settles O11, one digit range at a time. -/
theorem hexCodec : Obligations.HexCodec := by
  refine ⟨fun n => ⟨hexval_hexchar n, hexchar_toNat n⟩, hex2_eq, fun c hlo hhi => ?digit09,
    fun c hlo hhi => ?upper, fun c hlo hhi => ?lower, fun c hc => ?other⟩
  case digit09 =>
    rw [hexval_of_digit09 hlo hhi]
    exact map_toNat_some_ofNat (by omega)
  case upper =>
    rw [hexval_of_digitUpper hlo hhi]
    exact map_toNat_some_ofNat (by omega)
  case lower =>
    rw [hexval_of_digitLower hlo hhi]
    exact map_toNat_some_ofNat (by omega)
  case other =>
    exact hexval_eq_none (decide_eq_false (by omega)) (decide_eq_false (by omega))
      (decide_eq_false (by omega))

/-! ### Elapsed time -/

theorem elapsed_eq_emod (c : Config) (start now : Nat) :
    (elapsed c start now : Int) = ((now : Int) - start) % (c.tickModulus : Nat) := by
  have hle : start % c.tickModulus ≤ c.tickModulus := (Nat.mod_lt _ (Nat.two_pow_pos _)).le
  rw [elapsed, Int.natCast_emod, Nat.cast_add, Nat.cast_sub hle, Int.natCast_emod]
  calc ((now : Int) + (c.tickModulus - start % c.tickModulus)) % c.tickModulus
    _ = (now - start % c.tickModulus + c.tickModulus) % c.tickModulus := by
        rw [add_sub_left_comm, add_comm, sub_add_eq_add_sub]
    _ = (now - start % c.tickModulus) % c.tickModulus := Int.add_emod_right ..
    _ = (now - start) % c.tickModulus := Int.sub_emod_emod ..

@[simp] theorem elapsed_self (c : Config) (start : Nat) : elapsed c start start = 0 :=
  Int.ofNat_inj.1 ((elapsed_eq_emod c start start).trans (by simp))

/-- The tick counter wraps from its last value to 0. -/
theorem elapsed_last_zero {c : Config} (hw : 1 ≤ c.tickBits) :
    elapsed c (c.tickModulus - 1) 0 = 1 := by
  have hm : 1 < c.tickModulus := Nat.one_lt_two_pow (Nat.one_le_iff_ne_zero.1 hw)
  have hlast : (c.tickModulus - 1) % c.tickModulus = c.tickModulus - 1 :=
    Nat.mod_eq_of_lt (Nat.sub_one_lt_of_lt hm)
  rw [elapsed, hlast, Nat.sub_sub_self hm.le]
  exact Nat.mod_eq_of_lt hm

/-- Settles O12; the law holds of ticks beyond `2^W` too. -/
theorem elapsedIsModular : Obligations.ElapsedIsModular :=
  fun c start now _ _ => ⟨elapsed_eq_emod c start now, elapsed_self c start, elapsed_last_zero⟩

end Sys2Proof.Machine
end

section
/-! PROOF of O15 and O17 to O21: the frame engine's host commands (41_engine_commands.md R203 to R218). First
what each shared operation does in the states of its rule; then the commands. -/

namespace Sys2Proof.Machine

/-! ### BEGIN_SEND -/

theorem beginSend_of_acquirable {s : State} (h : s.blk.st = .idle ∨ s.blk.st = .frameReady) :
    beginSend s = (true, statusUpdate (s.goto .queue)) := by
  rcases beginSend_cases s with ⟨hb, -⟩ | ⟨-, hc⟩ | ⟨-, hi, hf, -⟩
  · exact hb
  · simp [hc] at h
  · exact absurd h (not_or.2 ⟨hi, hf⟩)

theorem beginSend_of_collision {s : State} (h : s.blk.st = .collision) : beginSend s = (true, s) := by
  simp [beginSend, h]

theorem beginSend_of_other {s : State} (hi : s.blk.st ≠ .idle) (hf : s.blk.st ≠ .frameReady)
    (hc : s.blk.st ≠ .collision) : beginSend s = (false, s) := by
  rcases beginSend_cases s with ⟨-, h⟩ | ⟨-, h⟩ | ⟨hb, -⟩
  · exact absurd h (not_or.2 ⟨hi, hf⟩)
  · exact absurd h hc
  · exact hb

/-- BEGIN_SEND leaves FRAME_READY for QUEUE and enters it from no state. -/
theorem beginSend_st_ne_frameReady (s : State) : (beginSend s).2.blk.st ≠ .frameReady := by
  rcases beginSend_cases s with ⟨hb, -⟩ | ⟨hb, hc⟩ | ⟨hb, -, hf, -⟩
  · simp [hb]
  · simp [hb, hc]
  · simpa [hb] using hf

theorem exec_beginSend (s : State) :
    exec .beginSend s = .next ((beginSend s).2.setResult (.bool (beginSend s).1)) := rfl

/-- Settles O18, from what BEGIN_SEND does in each of its three groups of states. -/
theorem beginSendAcquires : Obligations.BeginSendAcquires := by
  refine fun s => ⟨fun h => ?_, fun h => ?_, fun hi hf hc => ?_⟩
  · rw [exec_beginSend, beginSend_of_acquirable h]; rfl
  · rw [exec_beginSend, beginSend_of_collision h]
  · rw [exec_beginSend, beginSend_of_other hi hf hc]

/-! ### Station address, FRAME_READY and BUFFER_MAX -/

theorem St.isFrameReady_eq_decide (x : St) : x.isFrameReady = decide (x = .frameReady) := by
  cases x <;> rfl

theorem exec_frameReady (s : State) :
    exec .frameReady s = .next (s.setResult (.bool (decide (s.blk.st = .frameReady)))) := by
  rw [← St.isFrameReady_eq_decide]; rfl

/-- Settles O15. No BEGIN_SEND ends in FRAME_READY, so FRAME_READY answers false after it. -/
theorem stationFrameReadyAndBufferMax : Obligations.StationFrameReadyAndBufferMax := by
  refine fun s => ⟨rfl, fun _ => rfl, exec_frameReady s, rfl, fun t ht _ => ?_⟩
  rw [exec_beginSend] at ht
  obtain rfl := Host.Outcome.next.inj ht
  rw [exec_frameReady, State.setResult_blk, decide_eq_false (beginSend_st_ne_frameReady s)]

/-! ### Composing -/

theorem St.composing_iff (x : St) : x.composing = true ↔ x = .queue ∨ x = .collision := by
  cases x <;> simp [St.composing]

section
variable {s : State} (h : s.blk.st.composing = true)
include h

theorem exec_setFrameAddress_of_composing (a : Byte) :
    exec (.setFrameAddress a) s = .next (s.setBlk { s.blk with faddr := a }) := if_pos h

theorem exec_setBufferLen_of_composing {n : U16} (hn : n.toNat ≤ s.cfg.bufferMax) :
    exec (.setBufferLen n) s = .next (s.setLen n.toNat) :=
  (if_neg (Nat.not_lt.2 hn)).trans (if_pos h)

theorem exec_bufferWrite_of_composing {i : U16} (v : Byte) (hi : i.toNat < s.cfg.bufferMax) :
    exec (.bufferWrite i v) s = .next (s.writeBuf i.toNat [v]) :=
  (if_neg (Nat.not_le.2 hi)).trans (if_pos h)

end

section
variable {s : State} (h : s.blk.st.composing = false)
include h

theorem exec_setFrameAddress_refused (a : Byte) :
    exec (.setFrameAddress a) s = .next s.markRefused := if_neg (Bool.eq_false_iff.1 h)

/-- Out of range or not, the length is refused where the host does not compose. -/
theorem exec_setBufferLen_refused (n : U16) : exec (.setBufferLen n) s = .next s.markRefused :=
  ite_eq_left_iff.2 fun _ => if_neg (Bool.eq_false_iff.1 h)

theorem exec_bufferWrite_refused (i : U16) (v : Byte) :
    exec (.bufferWrite i v) s = .next s.markRefused :=
  ite_eq_left_iff.2 fun _ => if_neg (Bool.eq_false_iff.1 h)

end

/-- Settles O17. BUFFER_WRITE is one write to the buffer, so the law of reads after a write says what every
cell reads. -/
theorem composingCommands : Obligations.ComposingCommands := by
  refine fun s => ⟨fun hst => ?admitted, fun hq hc => ?refused,
    fun n hn => exec_setBufferLen_outOfRange hn, fun i v hi => exec_bufferWrite_outOfRange v hi⟩
  case admitted =>
    have h := (St.composing_iff _).2 hst
    exact ⟨exec_setFrameAddress_of_composing h, fun n hn => exec_setBufferLen_of_composing h hn,
      fun i v hi => ⟨Memory.write s.blk.buf i.toNat v, exec_bufferWrite_of_composing h v hi,
        Memory.read_write_same .., fun j hj => Memory.read_write_other _ _ j _ hj⟩⟩
  case refused =>
    have h : s.blk.st.composing = false :=
      Bool.eq_false_iff.2 fun h => ((St.composing_iff _).1 h).elim hq hc
    exact ⟨exec_setFrameAddress_refused h, exec_setBufferLen_refused h, exec_bufferWrite_refused h⟩

/-! ### SEND and FINISHED -/

theorem endCommand_of_st_ne {s t : State} (h : t.blk.st ≠ s.blk.st) :
    endCommand s t = statusUpdate t := if_neg h

theorem leaveCollision_rtu {s : State} (hm : s.cfg.mode = .rtu) :
    leaveCollision s = s.sampled.setBlk { s.blk with tRef := s.now, st := .dump } := by
  have hl : leaveCollision s = s.sampled.gotoAt .dump s.now := by rw [leaveCollision, hm]; rfl
  rw [hl, State.gotoAt, (sampled_same s).blk]

theorem leaveCollision_ascii {s : State} (hm : s.cfg.mode = .ascii) :
    leaveCollision s = s.goto .idle := by
  rw [leaveCollision, hm]

/-- The end of a command that leaves COLLISION, which SEND and FINISHED share. -/
theorem endCommand_leaveCollision_rtu {s : State} (h : s.blk.st = .collision)
    (hm : s.cfg.mode = .rtu) :
    endCommand s (leaveCollision s)
      = statusUpdate (s.sampled.setBlk { s.blk with tRef := s.now, st := .dump }) := by
  rw [leaveCollision_rtu hm, endCommand_of_st_ne (by simp [h])]

theorem endCommand_leaveCollision_ascii {s : State} (h : s.blk.st = .collision)
    (hm : s.cfg.mode = .ascii) :
    endCommand s (leaveCollision s) = statusUpdate (s.goto .idle) := by
  rw [leaveCollision_ascii hm, endCommand_of_st_ne (by simp [h])]

theorem startTransmit_rtu {s : State} (hm : s.cfg.mode = .rtu) :
    startTransmit s = (s.setBlk { s.blk with
      txPos := 0, crc := 0xFFFF#16, st := .txAddress, txen := true }).logCall (.txEnable true) := by
  rw [startTransmit, hm]; rfl

theorem startTransmit_ascii {s : State} (hm : s.cfg.mode = .ascii) :
    startTransmit s = (s.setBlk { s.blk with
      txPos := 0, lrc := 0#8, st := .txStart, txen := true }).logCall (.txEnable true) := by
  rw [startTransmit, hm]; rfl

theorem sendFrame_of_queue {s : State} (h : s.blk.st = .queue) (hl : s.blk.len < s.cfg.bufferMax) :
    sendFrame s = endCommand s (startTransmit s) := by
  simp [sendFrame, h, Nat.not_le.2 hl]

theorem sendFrame_of_full {s : State} (h : s.blk.st = .queue) (hl : s.cfg.bufferMax ≤ s.blk.len) :
    sendFrame s = endCommand s (s.goto .exception) := by
  simp [sendFrame, h, hl, raiseFatal]

theorem sendFrame_of_collision {s : State} (h : s.blk.st = .collision) :
    sendFrame s = endCommand s (leaveCollision s) := by
  simp [sendFrame, h]

theorem sendFrame_of_exception {s : State} (h : s.blk.st = .exception) : sendFrame s = s := by
  simp [sendFrame, h]

theorem sendFrame_of_other {s : State} (hq : s.blk.st ≠ .queue) (hc : s.blk.st ≠ .collision)
    (he : s.blk.st ≠ .exception) : sendFrame s = s.markRefused := by
  rcases sendFrame_cases s with ⟨h, -⟩ | ⟨h, -⟩ | ⟨h, -⟩ | ⟨h, -⟩ | ⟨-, -, -, h⟩
  · exact absurd h hq
  · exact absurd h hq
  · exact absurd h hc
  · exact absurd h he
  · exact h

theorem exec_send (s : State) : exec .send s = .next (sendFrame s) := rfl

/-- Settles O19, a state at a time; the status notification is made wherever the state is left. -/
theorem sendStartsTransmission : Obligations.SendStartsTransmission := by
  intro s
  refine ⟨fun h hl hm => ?rtu, fun h hl hm => ?ascii, fun h hl => ?full, fun h hm => ?abortRtu,
    fun h hm => ?abortAscii, fun h => ?fatal, fun hq hc he => ?refused⟩ <;> rw [exec_send]
  case rtu =>
    rw [sendFrame_of_queue h hl, startTransmit_rtu hm, endCommand_of_st_ne (by simp [h])]
  case ascii =>
    rw [sendFrame_of_queue h hl, startTransmit_ascii hm, endCommand_of_st_ne (by simp [h])]
  case full => rw [sendFrame_of_full h hl, endCommand_of_st_ne (by simp [h])]; rfl
  case abortRtu => rw [sendFrame_of_collision h, endCommand_leaveCollision_rtu h hm]
  case abortAscii => rw [sendFrame_of_collision h, endCommand_leaveCollision_ascii h hm]; rfl
  case fatal => rw [sendFrame_of_exception h]
  case refused => rw [sendFrame_of_other hq hc he]

theorem finish_of_held {s : State} (h : s.blk.st = .frameReady ∨ s.blk.st = .queue) :
    finish s = statusUpdate (s.goto .idle) := by
  have hf : finish s = endCommand s (s.goto .idle) := by rcases h with h | h <;> simp [finish, h]
  rw [hf, endCommand_of_st_ne (by rcases h with h | h <;> simp [h])]

theorem finish_of_collision {s : State} (h : s.blk.st = .collision) :
    finish s = endCommand s (leaveCollision s) := by
  simp [finish, h]

theorem finish_of_exception {s : State} (h : s.blk.st = .exception) : finish s = s := by
  simp [finish, h]

theorem finish_of_other {s : State} (hf : s.blk.st ≠ .frameReady) (hq : s.blk.st ≠ .queue)
    (hc : s.blk.st ≠ .collision) (he : s.blk.st ≠ .exception) : finish s = s.markRefused := by
  rcases finish_cases s with ⟨h, -⟩ | ⟨h, -⟩ | ⟨h, -⟩ | ⟨-, -, -, -, h⟩
  · exact (h.elim hf hq).elim
  · exact absurd h hc
  · exact absurd h he
  · exact h

theorem exec_finished (s : State) : exec .finished s = .next (finish s) := rfl

/-- Settles O20; COLLISION is left as SEND leaves it. -/
theorem finishedReleases : Obligations.FinishedReleases := by
  intro s
  refine ⟨fun h => ?held, fun h hm => ?abortRtu, fun h hm => ?abortAscii, fun h => ?fatal,
    fun hf hq hc he => ?refused⟩ <;> rw [exec_finished]
  case held => rw [finish_of_held h]; rfl
  case abortRtu => rw [finish_of_collision h, endCommand_leaveCollision_rtu h hm]
  case abortAscii => rw [finish_of_collision h, endCommand_leaveCollision_ascii h hm]; rfl
  case fatal => rw [finish_of_exception h]
  case refused => rw [finish_of_other hf hq hc he]

/-! ### SETUP -/

theorem lt_tickModulus_iff (c : Config) (n : Nat) : n < c.tickModulus ↔ n ≤ 2 ^ c.tickBits - 1 :=
  Nat.lt_iff_le_pred (Nat.two_pow_pos _)

section
variable {c : Config} (hg : c.asciiGuardTicks < 2 ^ c.tickBits)
include hg

theorem constantsFit_rtu_iff (hm : c.mode = .rtu) (baud : Nat) :
    constantsFit c baud = true
      ↔ deriveT35 c baud ≤ 2 ^ c.tickBits - 1 ∧ deriveT15 c baud ≤ 2 ^ c.tickBits - 1 := by
  have hg' : c.asciiGuardTicks < c.tickModulus := hg
  simp [constantsFit, hm, hg', ← lt_tickModulus_iff, and_comm]

theorem constantsFit_ascii_iff (hm : c.mode = .ascii) (baud : Nat) :
    constantsFit c baud = true ↔ deriveT1s c ≤ 2 ^ c.tickBits - 1 := by
  have hg' : c.asciiGuardTicks < c.tickModulus := hg
  simp [constantsFit, hm, hg', ← lt_tickModulus_iff]

end

theorem setupBaud_of_not_fit {baud : Nat} {s : State} (hf : ¬ constantsFit s.cfg baud = true) :
    setupBaud baud s = s.markRefused := by
  rcases setupBaud_cases baud s with h | ⟨-, hfit, -⟩ | ⟨-, hfit, -⟩
  · exact h
  · exact absurd hfit hf
  · exact absurd hfit hf

theorem setupBaud_rtu {baud : Nat} {s : State} (h0 : baud ≠ 0)
    (hf : constantsFit s.cfg baud = true) (hm : s.cfg.mode = .rtu) :
    setupBaud baud s = s.setBlk { s.blk with
      baud := baud, t15 := deriveT15 s.cfg baud, t35 := deriveT35 s.cfg baud } := by
  simp [setupBaud, h0, hf, hm]

theorem setupBaud_ascii {baud : Nat} {s : State} (h0 : baud ≠ 0)
    (hf : constantsFit s.cfg baud = true) (hm : s.cfg.mode = .ascii) :
    setupBaud baud s = s.setBlk { s.blk with baud := baud, t1s := deriveT1s s.cfg } := by
  simp [setupBaud, h0, hf, hm]

theorem exec_setup (baud : U32) (s : State) :
    exec (.setup baud) s = .next (setupBaud baud.toNat s) := rfl

/-- Settles O21: the thresholds written out are the derived ones, by definition, and with the guard in range
R11 asks of the derived ones alone. -/
theorem setupDerives : Obligations.SetupDerives := by
  intro s baud hg t35 t15 t1s
  have hpos : baud ≠ 0#32 → baud.toNat ≠ 0 := fun h => by simpa [← BitVec.toNat_inj] using h
  refine ⟨fun h => h ▸ exec_setup_baudZero s, fun h hm h35 h15 => ?rtu, fun _ hm hbig => ?rtuRefused,
    fun h hm h1 => ?ascii, fun _ hm hbig => ?asciiRefused⟩ <;> rw [exec_setup]
  case rtu =>
    rw [setupBaud_rtu (hpos h) ((constantsFit_rtu_iff hg hm _).2 ⟨h35, h15⟩) hm]; rfl
  case rtuRefused =>
    rw [setupBaud_of_not_fit]
    intro hf
    obtain ⟨h35, h15⟩ := (constantsFit_rtu_iff hg hm _).1 hf
    exact hbig.elim (Nat.not_lt.2 h35) (Nat.not_lt.2 h15)
  case ascii =>
    rw [setupBaud_ascii (hpos h) ((constantsFit_ascii_iff hg hm _).2 h1) hm]; rfl
  case asciiRefused =>
    rw [setupBaud_of_not_fit]
    exact fun hf => Nat.not_lt.2 ((constantsFit_ascii_iff hg hm _).1 hf) hbig

end Sys2Proof.Machine
end

section
/-! PROOF of O23 and O25: a POLL with nothing to do (41_engine_commands.md R201, R202, R225) and the
micro-steps of the states in which the application holds the buffer (R206, R207). -/

namespace Sys2Proof.Machine

/-! ### One micro-step from its state's rule -/

theorem microStep_again {s t : State} (h : stepState s.now s.sampled = (.again, t)) :
    microStep s = (.again, statusUpdate t) := by
  rw [microStep_eq, h]

theorem microStep_done {s t : State} {d : Nat} (h : stepState s.now s.sampled = (.done d, t)) :
    microStep s = (.done d, statusUpdate t) := by
  rw [microStep_eq, h]

/-! ### FRAME_READY, QUEUE and COLLISION -/

theorem stepState_held (now : Nat) {s : State} (h : s.blk.st = .frameReady ∨ s.blk.st = .queue) :
    stepState now s = stepHeld s := by
  rcases h with h | h <;> rw [stepState, h]

theorem stepState_collision (now : Nat) {s : State} (h : s.blk.st = .collision) :
    stepState now s = stepCollision s := by
  rw [stepState, h]

theorem stepHeld_of_silence {s t : State} (h : Machine.discard s = (.count 0, t)) :
    stepHeld s = (.done 0, t) := by
  simp [stepHeld, h]

theorem stepHeld_of_bytes {s t : State} {k : Nat} (hk : 0 < k)
    (h : Machine.discard s = (.count k, t)) : stepHeld s = (.again, t.goto .collision) := by
  simp [stepHeld, h, hk.ne']

theorem stepHeld_of_err {s t : State} (h : Machine.discard s = (.err, t)) :
    stepHeld s = (.again, t.goto .collision) := by
  simp [stepHeld, h]

theorem stepCollision_of_silence {s t : State} (h : Machine.discard s = (.count 0, t)) :
    stepCollision s = (.done 0, t) := by
  simp [stepCollision, h]

theorem stepCollision_of_bytes {s t : State} {k : Nat} (hk : 0 < k)
    (h : Machine.discard s = (.count k, t)) : stepCollision s = (.again, t) := by
  simp [stepCollision, h, hk]

theorem stepCollision_of_err {s t : State} (h : Machine.discard s = (.err, t)) :
    stepCollision s = (.done 0, t) := by
  simp [stepCollision, h]

/-- Settles O25: the rule of the state, applied to the answer; the block is the one before the call. -/
theorem holdingMicroSteps : Obligations.HoldingMicroSteps := by
  intro s t r hd
  have hsame : s.sampled.blk = s.blk := (sampled_same s).blk
  have hblk : t.blk = s.blk := (discard_same hd).blk.trans hsame
  refine ⟨fun hst => ?held, fun hst => ?collision⟩
  case held =>
    have hrule := stepState_held s.now (hsame.symm ▸ hst : s.sampled.blk.st = _ ∨ _)
    rw [← hblk]
    refine ⟨?_, ?_, ?_⟩
    · rintro rfl; exact microStep_done (hrule.trans (stepHeld_of_silence hd))
    · rintro k hk rfl; exact microStep_again (hrule.trans (stepHeld_of_bytes hk hd))
    · rintro rfl; exact microStep_again (hrule.trans (stepHeld_of_err hd))
  case collision =>
    have hrule := stepState_collision s.now (hsame.symm ▸ hst : s.sampled.blk.st = _)
    refine ⟨?_, ?_, ?_⟩
    · rintro rfl; exact microStep_done (hrule.trans (stepCollision_of_silence hd))
    · rintro k hk rfl; exact microStep_again (hrule.trans (stepCollision_of_bytes hk hd))
    · rintro rfl; exact microStep_done (hrule.trans (stepCollision_of_err hd))

/-! ### POLL in IDLE with nothing received -/

/-- A clock sample takes from the draws of `Ticks` and is recorded; nothing else changes. -/
theorem sampled_only (s : State) :
    ∃ script calls, s.sampled = s.setEnv { s.env with tickScript := script, calls := calls } := by
  unfold State.sampled ticks
  split <;> exact ⟨_, _, rfl⟩

theorem sampled_enterPoll (s : State) : (enterPoll s).sampled = enterPoll s.sampled := by
  cases h : s.env.tickScript <;> simp [State.sampled, ticks, enterPoll, h] <;> rfl

/-- No draw prescribed, no error, nothing queued, and the stream falls silent (R147, R222). -/
def Env.Silent (e : Env) : Prop :=
  e.rxScript = [] ∧ e.rxErr = false ∧ e.rxQueue = [] ∧ e.rxEndless = none

theorem Env.Silent.sampled {s : State} (h : s.env.Silent) : s.sampled.env.Silent := by
  obtain ⟨_, _, hs⟩ := sampled_only s
  rw [hs]; exact h

theorem rxAnswer_of_silent (n : Nat) {s : State} (h : s.env.Silent) :
    rxAnswer n s = (.bytes [], s) := by
  obtain ⟨hscript, herr, hqueue, hend⟩ := h
  calc rxAnswer n s = (.bytes (s.env.rxQueue.take n),
        s.setEnv { s.env with rxQueue := s.env.rxQueue.drop n }) := by
        simp [rxAnswer, hscript, herr, hqueue, hend]
    _ = (.bytes [], s) := by rw [hqueue, List.take_nil, List.drop_nil, ← hqueue]; rfl

theorem read1_of_silent {s : State} (h : s.env.Silent) :
    read1 s = (.nothing, s.logCall (.read 1 (.bytes []))) := by
  rw [read1, rxAnswer_of_silent 1 h]

theorem stepState_idle_of_nothing (now : Nat) {s t : State} (hst : s.blk.st = .idle)
    (h : read1 s = (.nothing, t)) : stepState now s = (.done 0, t) := by
  cases hm : s.cfg.mode with
  | rtu => simp [stepState, stepRtu, rtuIdle, hst, hm, h]
  | ascii => simp [stepState, stepAscii, asciiIdle, hst, hm, h]

theorem statusUpdate_of_statusOk {s : State} (h : s.blk.StatusOk s.cfg) : statusUpdate s = s :=
  if_neg fun ⟨hdiag, hne⟩ => hne (by rw [h, if_pos hdiag])

/-- The micro-step of IDLE with nothing received: a clock sample and one `Read`, answered by no byte. -/
theorem microStep_idle_of_silent {s : State} (hst : s.blk.st = .idle) (hok : s.blk.StatusOk s.cfg)
    (hsilent : s.env.Silent) :
    microStep s = (.done 0, s.sampled.logCall (.read 1 (.bytes []))) := by
  have hsame := sampled_same s
  have hstep := stepState_idle_of_nothing s.now (hsame.blk.symm ▸ hst)
    (read1_of_silent hsilent.sampled)
  rw [microStep_done hstep, statusUpdate_of_statusOk]
  rw [State.logCall_blk, State.logCall_cfg, hsame.blk, hsame.cfg]; exact hok

theorem runPoll_of_done {s t : State} {d : Nat} (h : microStep s = (.done d, t)) :
    runPoll s = endPoll d t := pollLoop_done _ h

theorem poll_reentered {s : State} (h : s.blk.inPoll = true ∨ s.polling = true) :
    poll s = s.markRefused := if_pos (by simpa using h)

section
variable {s : State} (hi : s.blk.inPoll = false) (hp : s.polling = false)
include hi hp

theorem poll_of_exception (hst : s.blk.st = .exception) : poll s = s.setResult (.deadline 0) := by
  simp [poll, hi, hp, hst]

theorem poll_of_ne_exception (hst : s.blk.st ≠ .exception) : poll s = runPoll (enterPoll s) := by
  cases h : s.blk.st <;> simp_all [poll]

theorem leavePoll_enterPoll : leavePoll (enterPoll s) = s := by
  have hblk : { s.blk with inPoll := false } = s.blk := by rw [← hi]
  calc leavePoll (enterPoll s) = (s.setBlk { s.blk with inPoll := false }).setPolling false := rfl
    _ = s.setPolling false := by rw [hblk, State.setBlk_self]
    _ = s := by rw [← hp]; rfl

end

theorem exec_poll (s : State) : exec .poll s = .next (poll s) := rfl

/-- Settles O23. In IDLE the first micro-step returns at once, and the end of the POLL undoes its beginning:
what stays is the clock sample, the `Read` and the result. -/
theorem pollWithoutWork : Obligations.PollWithoutWork := by
  refine fun s => ⟨fun h => ?reentered, fun hi hp hst => ?fatal,
    fun hi hp hst hok hscript herr hqueue hend => ?idle⟩ <;> rw [exec_poll]
  case reentered => rw [poll_reentered h]
  case fatal => rw [poll_of_exception hi hp hst]
  case idle =>
    have hm := microStep_idle_of_silent (s := enterPoll s) hst hok ⟨hscript, herr, hqueue, hend⟩
    rw [sampled_enterPoll] at hm
    have hsame := sampled_same s
    have hleave := leavePoll_enterPoll (s := s.sampled.logCall (.read 1 (.bytes [])))
      (by simpa [hsame.blk] using hi) (hsame.polling.trans hp)
    rw [poll_of_ne_exception hi hp (by simp [hst]), runPoll_of_done hm]
    exact congrArg (fun t => Host.Outcome.next (t.setResult (.deadline 0))) hleave

end Sys2Proof.Machine
end

section
/-! PROOF of O27 to O30: the reception half of the binary engine (42_rtu_engine.md R251 to R261). One equation
per answer of the stream for the rules of DUMP, IDLE and RECEIVE; each statement then applies the rule of its
state to the answer, the block being the one before the clock sample and the call. -/

namespace Sys2Proof.Machine

/-! ### The rule a micro-step runs -/

theorem read1_sampled_same {s t : State} {r : ReadResult} (h : read1 s.sampled = (r, t)) :
    SameBlock s t := (sampled_same s).trans (read1_same h)

theorem discard_sampled_same {s t : State} {r : DiscardResult}
    (h : Machine.discard s.sampled = (r, t)) : SameBlock s t := (sampled_same s).trans (discard_same h)

/-- In the states R206 and R207 do not cover, EXCEPTION aside, the rule is the binary engine's. -/
theorem stepState_rtu (now : Nat) {s : State} (hm : s.cfg.mode = .rtu)
    (hx : s.blk.st.holder ≠ .application) (he : s.blk.st ≠ .exception) :
    stepState now s = stepRtu now s := by
  cases h : s.blk.st <;> simp_all [stepState, St.holder]

section
variable {s : State} (hm : s.cfg.mode = .rtu)
include hm

theorem stepState_sampled_rtu (hx : s.blk.st.holder ≠ .application) (he : s.blk.st ≠ .exception) :
    stepState s.now s.sampled = stepRtu s.now s.sampled := by
  have hsame := sampled_same s
  exact stepState_rtu s.now (hsame.cfg ▸ hm) (hsame.blk ▸ hx) (hsame.blk ▸ he)

theorem stepState_sampled_dump (hst : s.blk.st = .dump) :
    stepState s.now s.sampled = stepSilence s.blk.t35 s.now s.sampled := by
  rw [stepState_sampled_rtu hm (by simp [hst, St.holder]) (by simp [hst]), stepRtu,
    (sampled_same s).blk, hst]

theorem stepState_sampled_rtuIdle (hst : s.blk.st = .idle) :
    stepState s.now s.sampled = rtuIdle s.now s.sampled := by
  rw [stepState_sampled_rtu hm (by simp [hst, St.holder]) (by simp [hst]), stepRtu,
    (sampled_same s).blk, hst]

theorem stepState_sampled_receive (hst : s.blk.st = .receive) :
    stepState s.now s.sampled = rtuReceive s.now s.sampled := by
  rw [stepState_sampled_rtu hm (by simp [hst, St.holder]) (by simp [hst]), stepRtu,
    (sampled_same s).blk, hst]

end

/-! ### A wait for silence (DUMP, TX_GUARD) -/

section
variable {s t : State} (threshold now : Nat)

theorem stepSilence_of_err (h : Machine.discard s = (.err, t)) :
    stepSilence threshold now s = (.again, t.setBlk { t.blk with tRef := now }) := by
  simp [stepSilence, h]

theorem stepSilence_of_bytes {k : Nat} (hk : 0 < k) (h : Machine.discard s = (.count k, t)) :
    stepSilence threshold now s = (.again, t.setBlk { t.blk with tRef := now }) := by
  simp [stepSilence, h, hk]

theorem stepSilence_of_reached (h : Machine.discard s = (.count 0, t))
    (he : threshold ≤ elapsed t.cfg t.blk.tRef now) :
    stepSilence threshold now s = (.again, t.goto .idle) := by
  simp [stepSilence, h, he]

theorem stepSilence_of_early (h : Machine.discard s = (.count 0, t))
    (he : elapsed t.cfg t.blk.tRef now < threshold) :
    stepSilence threshold now s = (.done (threshold - elapsed t.cfg t.blk.tRef now), t) := by
  simp [stepSilence, h, he]

end

/-- Settles O27: the wait for silence, with `T35` as its threshold. -/
theorem dumpMicroStep : Obligations.DumpMicroStep := by
  intro s t r hm hst hd
  have hsame := discard_sampled_same hd
  have hrule := stepState_sampled_dump hm hst
  rw [← hsame.blk] at hrule
  rw [← hsame.blk, ← hsame.cfg]
  refine ⟨?err, ?bytes, ?reached, ?early⟩
  case err => rintro rfl; exact microStep_again (hrule.trans (stepSilence_of_err _ _ hd))
  case bytes => rintro k hk rfl; exact microStep_again (hrule.trans (stepSilence_of_bytes _ _ hk hd))
  case reached => rintro rfl he; exact microStep_again (hrule.trans (stepSilence_of_reached _ _ hd he))
  case early => rintro rfl he; exact microStep_done (hrule.trans (stepSilence_of_early _ _ hd he))

/-! ### IDLE -/

theorem accept_iff (station a : Byte) :
    accept station a = true ↔ station = 0#8 ∨ a = 0#8 ∨ a = station := by
  simp [accept, or_assoc]

section
variable {s t : State} (now : Nat)

theorem rtuIdle_of_err (h : read1 s = (.err, t)) : rtuIdle now s = (.again, t.gotoAt .dump now) := by
  rw [rtuIdle, h]

theorem rtuIdle_of_nothing (h : read1 s = (.nothing, t)) : rtuIdle now s = (.done 0, t) := by
  rw [rtuIdle, h]

theorem rtuIdle_of_accepted {a : Byte} (h : read1 s = (.byte a, t))
    (ha : accept t.blk.station a = true) :
    rtuIdle now s = (.again, t.setBlk { t.blk with
      faddr := a, crc := crcByte 0xFFFF#16 a, rxN := 0, gap := false, tRef := now, st := .receive }) := by
  simp [rtuIdle, h, ha]

theorem rtuIdle_of_rejected {a : Byte} (h : read1 s = (.byte a, t))
    (ha : ¬ accept t.blk.station a = true) : rtuIdle now s = (.again, t.gotoAt .dump now) := by
  simp [rtuIdle, h, ha]

end

/-- Settles O28: the rule of IDLE on each answer; a byte is split by R223's acceptance test. -/
theorem rtuIdleMicroStep : Obligations.RtuIdleMicroStep := by
  intro s t r hm hst hr
  have hrule := stepState_sampled_rtuIdle hm hst
  rw [← (read1_sampled_same hr).blk]
  refine ⟨?nothing, ?err, ?accepted, ?rejected⟩
  case nothing => rintro rfl; exact microStep_done (hrule.trans (rtuIdle_of_nothing _ hr))
  case err => rintro rfl; exact microStep_again (hrule.trans (rtuIdle_of_err _ hr))
  case accepted =>
    rintro a rfl ha
    exact microStep_again (hrule.trans (rtuIdle_of_accepted _ hr ((accept_iff _ a).mpr ha)))
  case rejected =>
    rintro a rfl hstation hbroadcast hother
    have ha : ¬ accept t.blk.station a = true := by simp [accept_iff, hstation, hbroadcast, hother]
    exact microStep_again (hrule.trans (rtuIdle_of_rejected _ hr ha))

/-! ### RECEIVE, a byte or an error -/

section
variable {s t : State} (now : Nat)

theorem rtuReceive_of_err (h : read1 s = (.err, t)) :
    rtuReceive now s = (.again, t.gotoAt .dump now) := by
  rw [rtuReceive, h]

theorem rtuReceive_of_stored {b : Byte} (h : read1 s = (.byte b, t)) (hgap : t.blk.gap = false)
    (hroom : t.blk.rxN < t.cfg.bufferMax) :
    rtuReceive now s = (.again, t.setBlk { t.blk with
      buf := Memory.write t.blk.buf t.blk.rxN b
      rxN := t.blk.rxN + 1, crc := crcByte t.blk.crc b, tRef := now }) := by
  simp [rtuReceive, h, hgap, hroom, State.writeBuf, Memory.writeBytes]

theorem rtuReceive_of_discarded {b : Byte} (h : read1 s = (.byte b, t))
    (hb : t.blk.gap = true ∨ t.cfg.bufferMax ≤ t.blk.rxN) :
    rtuReceive now s = (.again, t.gotoAt .dump now) := by
  rcases hb with hgap | hfull
  · simp [rtuReceive, h, hgap]
  · simp [rtuReceive, h, Nat.not_lt.mpr hfull]

end

/-- Settles O29: the rule of RECEIVE on a byte and on an error; the cell written is the one at `S.rx_n`. -/
theorem receiveByteMicroStep : Obligations.ReceiveByteMicroStep := by
  intro s t r hm hst hr
  have hsame := read1_sampled_same hr
  have hrule := stepState_sampled_receive hm hst
  rw [← hsame.blk, ← hsame.cfg]
  refine ⟨?stored, ?discarded, ?err⟩
  case stored =>
    rintro b rfl hgap hroom
    exact ⟨Memory.write t.blk.buf t.blk.rxN b,
      microStep_again (hrule.trans (rtuReceive_of_stored _ hr hgap hroom)),
      Memory.read_write_same _ _ _, fun j => Memory.read_write_other _ _ j _⟩
  case discarded =>
    rintro b rfl hb; exact microStep_again (hrule.trans (rtuReceive_of_discarded _ hr hb))
  case err => rintro rfl; exact microStep_again (hrule.trans (rtuReceive_of_err _ hr))

/-! ### RECEIVE, silence -/

section
variable {s t : State} {now : Nat} (h : read1 s = (.nothing, t))
include h

theorem rtuReceive_of_before_t15 (h35 : elapsed t.cfg t.blk.tRef now < t.blk.t35)
    (h15 : elapsed t.cfg t.blk.tRef now < t.blk.t15) :
    rtuReceive now s = (.done (t.blk.t15 - elapsed t.cfg t.blk.tRef now), t) := by
  simp [rtuReceive, h, h35, Nat.not_le.mpr h15]

theorem rtuReceive_of_gap (h35 : elapsed t.cfg t.blk.tRef now < t.blk.t35)
    (h15 : t.blk.t15 ≤ elapsed t.cfg t.blk.tRef now) :
    rtuReceive now s = (.done (t.blk.t35 - elapsed t.cfg t.blk.tRef now),
      t.setBlk { t.blk with gap := true }) := by
  simp [rtuReceive, h, h35, h15]

theorem rtuReceive_of_t35 (h35 : t.blk.t35 ≤ elapsed t.cfg t.blk.tRef now) :
    rtuReceive now s = (.again, rtuEndOfFrame t) := by
  simp [rtuReceive, h, Nat.not_lt.mpr h35]

end

theorem rtuEndOfFrame_of_invalid {s : State} (h : s.blk.rxN < 2 ∨ s.blk.crc ≠ 0#16) :
    rtuEndOfFrame s = s.goto .idle :=
  if_neg fun ⟨hn, hcrc⟩ => h.elim (Nat.not_lt.mpr hn) (absurd hcrc)

theorem rtuEndOfFrame_of_valid {s : State} (hn : 2 ≤ s.blk.rxN) (hcrc : s.blk.crc = 0#16) :
    rtuEndOfFrame s = enterFrameReady (s.setLen (s.blk.rxN - 2)) := if_pos ⟨hn, hcrc⟩

theorem enterFrameReady_of_dispatcher {s : State} (h : s.cfg.dispatcherAttached = true) :
    enterFrameReady s = dispatch (s.goto .frameReady) := if_pos h

/-- With nobody to notify, FRAME_READY is entered and nothing more happens (R219). -/
theorem enterFrameReady_of_noCallback {s : State} (hd : s.cfg.dispatcherAttached = false)
    (hc : s.env.callback = []) : enterFrameReady s = s.goto .frameReady := by
  simp [enterFrameReady, externalCallback, hd, hc]

theorem exec_dispatch (s : State) : exec .dispatch s = .next (dispatch s) := rfl

/-- Settles O30: the rule of RECEIVE on silence, split at T35, then by what R261 asks of the frame. -/
theorem receiveSilenceMicroStep : Obligations.ReceiveSilenceMicroStep := by
  intro s t hm hst hr
  have hsame := read1_sampled_same hr
  have hrule := stepState_sampled_receive hm hst
  rw [← hsame.blk, ← hsame.cfg, ← hsame.callback]
  intro e ready
  refine ⟨fun h35 h15 => ?gap, fun h35 h15 => ?before, fun h35 hbad => ?invalid,
    fun h35 hn hcrc => ?valid⟩
  case gap => exact microStep_done (hrule.trans (rtuReceive_of_gap hr h35 h15))
  case before => exact microStep_done (hrule.trans (rtuReceive_of_before_t15 hr h35 h15))
  case invalid =>
    rw [microStep_again (hrule.trans (rtuReceive_of_t35 hr h35)), rtuEndOfFrame_of_invalid hbad]
    rfl
  case valid =>
    have hend := microStep_again (hrule.trans (rtuReceive_of_t35 hr h35))
    rw [rtuEndOfFrame_of_valid hn hcrc] at hend
    refine ⟨fun hd => ⟨dispatch ready, exec_dispatch ready, ?_⟩, fun hd hc => ?_⟩
    · rw [hend, enterFrameReady_of_dispatcher (s := t.setLen (t.blk.rxN - 2)) hd]; rfl
    · rw [hend, enterFrameReady_of_noCallback (s := t.setLen (t.blk.rxN - 2)) hd hc]; rfl

end Sys2Proof.Machine
end

section
/-! PROOF of O35 to O38, O40 and O41: the character engine (43_ascii_engine.md R301 to R316, R322, R323), the
phases of its transmission aside. First the rule a micro-step runs in each state, then one equation per answer
of the stream or character; each statement applies the rule of its state to the answer. -/

namespace Sys2Proof.Machine

/-! ### The rule a micro-step runs -/

/-- In the states R206 and R207 do not cover, EXCEPTION aside, the rule is the character engine's. -/
theorem stepState_ascii (now : Nat) {s : State} (hm : s.cfg.mode = .ascii)
    (hx : s.blk.st.holder ≠ .application) (he : s.blk.st ≠ .exception) :
    stepState now s = stepAscii now s := by
  cases h : s.blk.st <;> simp_all [stepState, St.holder]

/-- What a reception state does with a character that is not `:` (R305 to R313). -/
def asciiRxRule (now : Nat) : St → Option (Byte → State → State)
  | .rxAddrHi => some (asciiAddrHi now)
  | .rxAddrLo => some (asciiAddrLo now)
  | .rxDataHi => some (asciiDataHi now)
  | .rxDataLo => some (asciiDataLo now)
  | .rxLf => some (asciiLf now)
  | _ => none

/-- What a transmit state does after the discard of the echo (R317 to R322). -/
def asciiTxRule (now : Nat) : St → Option (Nat → State → StepAnswer × State)
  | .txStart => some asciiTxStart
  | .txAddress => some asciiTxAddress
  | .txPdu => some asciiTxPdu
  | .txChecksum => some asciiTxChecksum
  | .txEnd => some asciiTxEnd
  | .txDrain => some (txDrain .txGuard now)
  | _ => none

/-- R32's reception states of ASCII mode, in the order of R305 to R313. -/
theorem exists_asciiRxRule (now : Nat) {x : St}
    (h : x = .rxAddrHi ∨ x = .rxAddrLo ∨ x = .rxDataHi ∨ x = .rxDataLo ∨ x = .rxLf) :
    ∃ on, asciiRxRule now x = some on := by
  rcases h with rfl | rfl | rfl | rfl | rfl <;> exact ⟨_, rfl⟩

theorem exists_asciiTxRule (now : Nat) {x : St} (h : x.txActive = true) :
    ∃ phase, asciiTxRule now x = some phase := by
  cases x <;> simp_all [St.txActive, asciiTxRule]

section
variable {s : State} (hm : s.cfg.mode = .ascii)
include hm

theorem stepState_sampled_ascii (hx : s.blk.st.holder ≠ .application) (he : s.blk.st ≠ .exception) :
    stepState s.now s.sampled = stepAscii s.now s.sampled := by
  have hsame := sampled_same s
  exact stepState_ascii s.now (hsame.cfg ▸ hm) (hsame.blk ▸ hx) (hsame.blk ▸ he)

theorem stepState_sampled_asciiIdle (hst : s.blk.st = .idle) :
    stepState s.now s.sampled = asciiIdle s.now s.sampled := by
  rw [stepState_sampled_ascii hm (by simp [hst, St.holder]) (by simp [hst]), stepAscii,
    (sampled_same s).blk, hst]

theorem stepState_sampled_asciiRx {on : Byte → State → State}
    (hon : asciiRxRule s.now s.blk.st = some on) :
    stepState s.now s.sampled = asciiRx s.now on s.sampled := by
  have hsame := sampled_same s
  cases hst : s.blk.st <;> simp only [hst, asciiRxRule, Option.some.injEq, reduceCtorEq] at hon
  all_goals
    rw [stepState_sampled_ascii hm (by simp [hst, St.holder]) (by simp [hst]), stepAscii, hsame.blk,
      hst, ← hon]

theorem stepState_sampled_asciiTx {phase : Nat → State → StepAnswer × State}
    (hphase : asciiTxRule s.now s.blk.st = some phase) :
    stepState s.now s.sampled = stepTransmit .idle s.now phase s.sampled := by
  have hsame := sampled_same s
  cases hst : s.blk.st <;> simp only [hst, asciiTxRule, Option.some.injEq, reduceCtorEq] at hphase
  all_goals
    rw [stepState_sampled_ascii hm (by simp [hst, St.holder]) (by simp [hst]), stepAscii, hsame.blk,
      hst, ← hphase]

theorem stepState_sampled_txGuard (hst : s.blk.st = .txGuard) :
    stepState s.now s.sampled = stepSilence s.cfg.asciiGuardTicks s.now s.sampled := by
  have hsame := sampled_same s
  rw [stepState_sampled_ascii hm (by simp [hst, St.holder]) (by simp [hst]), stepAscii, hsame.blk, hst,
    hsame.cfg]

end

/-! ### IDLE -/

section
variable {s t : State} (now : Nat)

theorem asciiIdle_of_err (h : read1 s = (.err, t)) :
    asciiIdle now s = (.again, t.setBlk { t.blk with tRef := now }) := by
  rw [asciiIdle, h]

theorem asciiIdle_of_nothing (h : read1 s = (.nothing, t)) : asciiIdle now s = (.done 0, t) := by
  rw [asciiIdle, h]

theorem asciiIdle_of_colon (h : read1 s = (.byte 0x3A#8, t)) :
    asciiIdle now s = (.again, asciiStart now t) := by
  simp [asciiIdle, h]

theorem asciiIdle_of_other {c : Byte} (hc : c ≠ 0x3A#8) (h : read1 s = (.byte c, t)) :
    asciiIdle now s = (.again, t) := by
  simp [asciiIdle, h, hc]

end

/-! ### The reception states -/

section
variable {s t : State} (now : Nat) (on : Byte → State → State)

theorem asciiRx_of_err (h : read1 s = (.err, t)) :
    asciiRx now on s = (.again, t.gotoAt .idle now) := by
  rw [asciiRx, h]

theorem asciiRx_of_colon (h : read1 s = (.byte 0x3A#8, t)) :
    asciiRx now on s = (.again, asciiStart now t) := by
  simp [asciiRx, h]

theorem asciiRx_of_other {c : Byte} (hc : c ≠ 0x3A#8) (h : read1 s = (.byte c, t)) :
    asciiRx now on s = (.again, on c t) := by
  simp [asciiRx, h, hc]

theorem asciiRx_of_timeout (h : read1 s = (.nothing, t))
    (he : t.blk.t1s ≤ elapsed t.cfg t.blk.tRef now) :
    asciiRx now on s = (.again, t.goto .idle) := by
  simp [asciiRx, h, he]

theorem asciiRx_of_early (h : read1 s = (.nothing, t))
    (he : elapsed t.cfg t.blk.tRef now < t.blk.t1s) :
    asciiRx now on s = (.done (t.blk.t1s - elapsed t.cfg t.blk.tRef now), t) := by
  simp [asciiRx, h, Nat.not_le.mpr he]

end

/-- A character that is not `:` in a reception state: the rule of the state decides what is left. -/
theorem microStep_asciiRx_of_other {s t : State} {x : St} {c : Byte} {on : Byte → State → State}
    (hm : s.cfg.mode = .ascii) (hc : c ≠ 0x3A#8) (hr : read1 s.sampled = (.byte c, t))
    (hst : t.blk.st = x) (hon : asciiRxRule s.now x = some on) :
    microStep s = (.again, statusUpdate (on c t)) := by
  rw [← hst, (read1_sampled_same hr).blk] at hon
  exact microStep_again ((stepState_sampled_asciiRx hm hon).trans (asciiRx_of_other _ _ hc hr))

/-- Settles O35: IDLE and each reception state treat `:` alike. -/
theorem colonStartsAFrame : Obligations.ColonStartsAFrame := by
  intro s t hm hst hr
  rw [← (read1_sampled_same hr).blk]
  refine microStep_again (t := asciiStart s.now t) ?_
  rcases hst with hidle | hrx
  · exact (stepState_sampled_asciiIdle hm hidle).trans (asciiIdle_of_colon _ hr)
  · obtain ⟨on, hon⟩ := exists_asciiRxRule s.now hrx
    exact (stepState_sampled_asciiRx hm hon).trans (asciiRx_of_colon _ on hr)

/-- Settles O40: IDLE and the reception states on no byte and on an error; T1S splits the silence. -/
theorem characterTimeout : Obligations.CharacterTimeout := by
  intro s t r hm hr
  have hsame := read1_sampled_same hr
  refine ⟨fun hst => ?idle, fun hst => ?reception⟩
  case idle =>
    have hrule := stepState_sampled_asciiIdle hm hst
    rw [← hsame.blk]
    refine ⟨?_, ?_⟩
    · rintro rfl; exact microStep_done (hrule.trans (asciiIdle_of_nothing _ hr))
    · rintro rfl; exact microStep_again (hrule.trans (asciiIdle_of_err _ hr))
  case reception =>
    obtain ⟨on, hon⟩ := exists_asciiRxRule s.now hst
    have hrule := stepState_sampled_asciiRx hm hon
    rw [← hsame.blk, ← hsame.cfg]
    refine ⟨?_, ?_, ?_⟩
    · rintro rfl he; exact microStep_again (hrule.trans (asciiRx_of_timeout _ on hr he))
    · rintro rfl he; exact microStep_done (hrule.trans (asciiRx_of_early _ on hr he))
    · rintro rfl; exact microStep_again (hrule.trans (asciiRx_of_err _ on hr))

/-! ### Characters: hex digits, CR, LF and those that are illegal where they arrive -/

theorem nibbles_eq_ofNat (hi lo : BitVec 4) :
    nibbles hi lo = BitVec.ofNat 8 (16 * hi.toNat + lo.toNat) := by
  revert hi lo; decide

theorem hexval_colon : hexval 0x3A#8 = none := by decide

theorem hexval_cr : hexval 0x0D#8 = none := by decide

theorem ne_colon_of_hexval {c : Byte} {d : BitVec 4} (h : hexval c = some d) : c ≠ 0x3A#8 := by
  rintro rfl; simp [hexval_colon] at h

section
variable {s : State} (now : Nat) {c : Byte}

section
variable {d : BitVec 4} (h : hexval c = some d)
include h

theorem asciiAddrHi_of_digit :
    asciiAddrHi now c s = s.setBlk { s.blk with nib := d, tRef := now, st := .rxAddrLo } := by
  rw [asciiAddrHi, h]

theorem asciiAddrLo_of_accepted (ha : accept s.blk.station (nibbles s.blk.nib d) = true) :
    asciiAddrLo now c s = s.setBlk { s.blk with
      faddr := nibbles s.blk.nib d, lrc := s.blk.lrc + nibbles s.blk.nib d, tRef := now
      st := .rxDataHi } := by
  simp [asciiAddrLo, h, ha, lrcUpdate]

theorem asciiAddrLo_of_rejected (ha : ¬ accept s.blk.station (nibbles s.blk.nib d) = true) :
    asciiAddrLo now c s = s.gotoAt .idle now := by
  simp [asciiAddrLo, h, ha]

theorem asciiDataHi_of_digit :
    asciiDataHi now c s = s.setBlk { s.blk with nib := d, tRef := now, st := .rxDataLo } := by
  rw [asciiDataHi, h]

theorem asciiDataLo_of_stored (hroom : s.blk.rxN < s.cfg.bufferMax) :
    asciiDataLo now c s = s.setBlk { s.blk with
      buf := Memory.write s.blk.buf s.blk.rxN (nibbles s.blk.nib d), rxN := s.blk.rxN + 1
      lrc := s.blk.lrc + nibbles s.blk.nib d, tRef := now, st := .rxDataHi } := by
  simp [asciiDataLo, h, hroom, State.writeBuf, Memory.writeBytes, lrcUpdate]

theorem asciiDataLo_of_full (hfull : s.cfg.bufferMax ≤ s.blk.rxN) :
    asciiDataLo now c s = s.gotoAt .idle now := by
  simp [asciiDataLo, h, Nat.not_lt.mpr hfull]

end

section
variable (h : hexval c = none)
include h

theorem asciiAddrHi_of_illegal : asciiAddrHi now c s = s.gotoAt .idle now := by rw [asciiAddrHi, h]

theorem asciiAddrLo_of_illegal : asciiAddrLo now c s = s.gotoAt .idle now := by rw [asciiAddrLo, h]

theorem asciiDataHi_of_illegal (hc : c ≠ 0x0D#8) : asciiDataHi now c s = s.gotoAt .idle now := by
  simp [asciiDataHi, h, hc]

theorem asciiDataLo_of_illegal : asciiDataLo now c s = s.gotoAt .idle now := by rw [asciiDataLo, h]

end

theorem asciiDataHi_cr : asciiDataHi now 0x0D#8 s = s.gotoAt .rxLf now := by
  simp [asciiDataHi, hexval_cr]

theorem asciiLf_lf : asciiLf now 0x0A#8 s = asciiEndOfFrame s := if_pos rfl

theorem asciiLf_of_illegal (hc : c ≠ 0x0A#8) : asciiLf now c s = s.gotoAt .idle now := if_neg hc

end

/-- Settles O36: the rule of each state on a character that is illegal there. -/
theorem illegalCharactersAbort : Obligations.IllegalCharactersAbort := by
  intro s t c hm hc hr
  rw [← (read1_sampled_same hr).blk]
  refine ⟨fun hst => ?idle, fun hill => ?inside⟩
  case idle =>
    rw [(read1_sampled_same hr).blk] at hst
    exact microStep_again ((stepState_sampled_asciiIdle hm hst).trans (asciiIdle_of_other _ hc hr))
  case inside =>
    rcases hill with ⟨h, hst | hst | hst⟩ | ⟨h, hcr, hst⟩ | ⟨hlf, hst⟩ <;>
      rw [microStep_asciiRx_of_other hm hc hr hst rfl]
    · rw [asciiAddrHi_of_illegal _ h]; rfl
    · rw [asciiAddrLo_of_illegal _ h]; rfl
    · rw [asciiDataLo_of_illegal _ h]; rfl
    · rw [asciiDataHi_of_illegal _ h hcr]; rfl
    · rw [asciiLf_of_illegal _ hlf]; rfl

/-- Settles O37: the rule of each state on a hex digit; the cell written is the one at `S.rx_n`. -/
theorem hexDigitsAreDecoded : Obligations.HexDigitsAreDecoded := by
  intro s t c d hm hd hr
  have hsame := read1_sampled_same hr
  rw [← hsame.blk, ← hsame.cfg, ← nibbles_eq_ofNat]
  intro value aborted
  have hstep {x : St} {on : Byte → State → State} :=
    microStep_asciiRx_of_other (x := x) (on := on) hm (ne_colon_of_hexval hd) hr
  refine ⟨fun hst => ?addrHi, fun hst ha => ?accepted, fun hst hstation hbroadcast hother => ?rejected,
    fun hst => ?dataHi, fun hst hroom => ?stored, fun hst hfull => ?full⟩
  case addrHi => rw [hstep hst rfl, asciiAddrHi_of_digit _ hd]
  case accepted => rw [hstep hst rfl, asciiAddrLo_of_accepted _ hd ((accept_iff _ value).mpr ha)]
  case rejected =>
    have ha : ¬ accept t.blk.station value = true := by
      simp [accept_iff, hstation, hbroadcast, hother]
    rw [hstep hst rfl, asciiAddrLo_of_rejected _ hd ha]; rfl
  case dataHi => rw [hstep hst rfl, asciiDataHi_of_digit _ hd]
  case stored =>
    refine ⟨Memory.write t.blk.buf t.blk.rxN value, ?_, Memory.read_write_same _ _ _,
      fun j => Memory.read_write_other _ _ j _⟩
    rw [hstep hst rfl, asciiDataLo_of_stored _ hd hroom]
  case full => rw [hstep hst rfl, asciiDataLo_of_full _ hd hfull]; rfl

/-! ### The end of a frame -/

theorem asciiEndOfFrame_of_invalid {s : State} (h : s.blk.rxN < 1 ∨ s.blk.lrc ≠ 0#8) :
    asciiEndOfFrame s = s.goto .idle :=
  if_neg fun ⟨hn, hlrc⟩ => h.elim (Nat.not_lt.mpr hn) (absurd hlrc)

theorem asciiEndOfFrame_of_valid {s : State} (hn : 1 ≤ s.blk.rxN) (hlrc : s.blk.lrc = 0#8) :
    asciiEndOfFrame s = enterFrameReady (s.setLen (s.blk.rxN - 1)) := if_pos ⟨hn, hlrc⟩

/-- A micro-step that ends in `EnterFrameReady` is DISPATCH in FRAME_READY where the dispatcher is attached,
and FRAME_READY where nobody is (R219). -/
theorem microStep_of_enterFrameReady {s u : State}
    (h : microStep s = (.again, statusUpdate (enterFrameReady u))) :
    (u.cfg.dispatcherAttached = true →
        ∃ v, exec .dispatch (u.goto .frameReady) = .next v ∧ microStep s = (.again, statusUpdate v))
      ∧ (u.cfg.dispatcherAttached = false → u.env.callback = [] →
        microStep s = (.again, statusUpdate (u.goto .frameReady))) := by
  refine ⟨fun hd => ⟨_, exec_dispatch _, ?_⟩, fun hd hcb => ?_⟩
  · rw [h, enterFrameReady_of_dispatcher hd]
  · rw [h, enterFrameReady_of_noCallback hd hcb]

/-- Settles O38: CR by the rule of RX_DATA_HI, LF by that of RX_LF, then by what R312 asks of the frame. -/
theorem carriageReturnAndLineFeed : Obligations.CarriageReturnAndLineFeed := by
  intro s t c hm hr
  have hsame := read1_sampled_same hr
  rw [← hsame.blk, ← hsame.cfg, ← hsame.callback]
  intro ready
  have hstep {x : St} {on : Byte → State → State} (hc : c ≠ 0x3A#8) :=
    microStep_asciiRx_of_other (x := x) (on := on) hm hc hr
  refine ⟨?cr, ?invalid, ?valid⟩
  case cr =>
    rintro rfl hst
    rw [hstep (by decide) hst rfl, asciiDataHi_cr]; rfl
  case invalid =>
    rintro rfl hst hbad
    rw [hstep (by decide) hst rfl, asciiLf_lf, asciiEndOfFrame_of_invalid hbad]; rfl
  case valid =>
    rintro rfl hst hn hlrc
    have hend := hstep (by decide) hst rfl
    rw [asciiLf_lf, asciiEndOfFrame_of_valid hn hlrc] at hend
    exact microStep_of_enterFrameReady hend

/-! ### The echo discard, the drain and the guard of a transmission -/

/-- The driver is released and `x` entered, as one update of the block. -/
theorem txEnable_gotoAt (level : Bool) (x : St) (now : Nat) (s : State) :
    (txEnable level s).gotoAt x now
      = (s.logCall (.txEnable level)).setBlk { s.blk with txen := level, tRef := now, st := x } := rfl

section
variable {s t : State} (x : St) (now : Nat)

theorem stepTransmit_of_err (phase : Nat → State → StepAnswer × State)
    (h : Machine.discard s = (.err, t)) :
    stepTransmit x now phase s = (.again, (t.logCall (.txEnable false)).setBlk
      { t.blk with txen := false, tRef := now, st := x }) := by
  rw [stepTransmit, h]; rfl

theorem stepTransmit_of_count {k : Nat} (phase : Nat → State → StepAnswer × State)
    (h : Machine.discard s = (.count k, t)) : stepTransmit x now phase s = phase k t := by
  rw [stepTransmit, h]

theorem txDrain_of_complete (k : Nat) (h : writeComplete s = (true, t)) :
    txDrain x now k s = (.again, (t.logCall (.txEnable false)).setBlk
      { t.blk with txen := false, tRef := now, st := x }) := by
  rw [txDrain, h]; rfl

theorem txDrain_of_pending (k : Nat) (h : writeComplete s = (false, t)) :
    txDrain x now k s = (idleAfter k, t) := by
  rw [txDrain, h]

end

/-- A micro-step that answers as `(k > 0 ? continue : return 0)` (R316) does. -/
theorem microStep_idleAfter {s t : State} {k : Nat}
    (h : stepState s.now s.sampled = (idleAfter k, t)) :
    microStep s = (if 0 < k then .again else .done 0, statusUpdate t) := by
  by_cases hk : 0 < k
  · rw [if_pos hk]; rw [idleAfter, if_pos hk] at h; exact microStep_again h
  · rw [if_neg hk]; rw [idleAfter, if_neg hk] at h; exact microStep_done h

/-- Settles O41: the echo discard of a transmit state, the drain after it, and the guard as a wait for
silence. -/
theorem asciiAbortDrainAndGuard : Obligations.AsciiAbortDrainAndGuard := by
  intro s t r hm hd
  have hsame := discard_sampled_same hd
  refine ⟨fun hact => ?abort, fun hst k u => ?drain, fun hst => ?guard⟩
  case abort =>
    rintro rfl
    obtain ⟨phase, hphase⟩ := exists_asciiTxRule s.now hact
    rw [← hsame.blk]
    exact microStep_again
      ((stepState_sampled_asciiTx hm hphase).trans (stepTransmit_of_err _ _ phase hd))
  case drain =>
    rintro rfl
    have hrule := (stepState_sampled_asciiTx hm (hst ▸ rfl)).trans
      (stepTransmit_of_count .idle s.now (txDrain .txGuard s.now) hd)
    refine ⟨fun hw => ?_, fun hw => ?_⟩
    · rw [← (hsame.trans (writeComplete_same hw)).blk]
      exact microStep_again (hrule.trans (txDrain_of_complete _ _ k hw))
    · exact microStep_idleAfter (hrule.trans (txDrain_of_pending _ _ k hw))
  case guard =>
    have hrule := stepState_sampled_txGuard hm hst
    rw [← hsame.cfg] at hrule
    rw [← hsame.blk, ← hsame.cfg]
    refine ⟨?_, ?_, ?_, ?_⟩
    · rintro rfl; exact microStep_again (hrule.trans (stepSilence_of_err _ _ hd))
    · rintro k hk rfl; exact microStep_again (hrule.trans (stepSilence_of_bytes _ _ hk hd))
    · rintro rfl he; exact microStep_again (hrule.trans (stepSilence_of_reached _ _ hd he))
    · rintro rfl he; exact microStep_done (hrule.trans (stepSilence_of_early _ _ hd he))

end Sys2Proof.Machine
end

section
/-! PROOF of O46, O47 and O54: the ends of the dispatch procedure (44_dispatcher.md R355, R371 to R373) and the
defaults of the register handler (R352, R353). -/

namespace Sys2Proof.Machine

/-! ### An empty PDU -/

theorem State.pdu_eq_nil_iff (s : State) : s.pdu = [] ↔ s.blk.len = 0 := by
  rw [← List.length_eq_zero_iff, State.pdu_length]

theorem dispatch_of_empty {s : State} (h : s.blk.st = .frameReady ∨ s.blk.st = .collision)
    (hlen : s.blk.len = 0) : dispatch s = finish s := by
  have hpdu := s.pdu_eq_nil_iff.2 hlen
  rcases h with h | h <;> simp [dispatch, h, hpdu]

/-- Settles O46: FINISHED in FRAME_READY goes to IDLE; outside the two states of a request DISPATCH is
refused. -/
theorem dispatchEmptyAndRefused : Obligations.DispatchEmptyAndRefused := by
  refine fun s => ⟨fun h hlen => ?frameReady, fun h hlen => ?collision, fun hf hc => ?refused⟩
  case frameReady =>
    rw [exec_dispatch, dispatch_of_empty (.inl h) hlen, finish_of_held (.inl h)]; rfl
  case collision =>
    exact ⟨finish s, exec_finished s, by rw [exec_dispatch, dispatch_of_empty (.inr h) hlen]⟩
  case refused => rw [exec_dispatch, dispatch_eq_markRefused hf hc]

/-! ### The buffer handed back -/

section
variable (fc exc : Byte) {s : State}

theorem handBack_of_broadcast (hstation : s.blk.station ≠ 0#8) (hfaddr : s.blk.faddr = 0#8) :
    handBack fc exc s = finish s := if_pos ⟨hstation, hfaddr⟩

section
variable (h : s.blk.station = 0#8 ∨ s.blk.faddr ≠ 0#8)
include h

theorem handBack_of_success : handBack fc 0#8 s = sendFrame s :=
  if_neg fun ⟨hstation, hfaddr⟩ => h.elim hstation (absurd hfaddr)

theorem handBack_of_exception (hexc : exc ≠ 0#8) :
    handBack fc exc s = sendFrame (encodeException fc exc s) := by
  rw [handBack, if_neg fun ⟨hstation, hfaddr⟩ => h.elim hstation (absurd hfaddr), if_pos hexc]

end

theorem encodeException_eq (s : State) :
    encodeException fc exc s = s.setBlk { s.blk with
      buf := Memory.writeBytes s.blk.buf 0 [fc ||| 0x80#8, exc], len := 2 } := rfl

end

/-- Settles O47, by what reads see of the two bytes written from cell 0 on. -/
theorem handBackAnswers : Obligations.HandBackAnswers := by
  refine fun fc exc s => ⟨fun hstation hfaddr => ?broadcast, fun h hexc => ?success,
    fun h hexc => ?exception⟩
  case broadcast => rw [exec_finished, handBack_of_broadcast fc exc hstation hfaddr]
  case success => rw [exec_send, hexc, handBack_of_success fc h]
  case exception =>
    refine ⟨Memory.writeBytes s.blk.buf 0 [fc ||| 0x80#8, exc], ?_, ?_, ?_, fun j hj => ?_⟩
    · rw [exec_send, handBack_of_exception fc exc h hexc, encodeException_eq]
    · simp [Memory.read_writeBytes]
    · simp [Memory.read_writeBytes]
    · simp [Memory.read_writeBytes, Nat.not_lt.2 hj]

/-! ### Handler calls -/

/-- A default delegates once: what a call becomes is not delegated further. -/
@[simp] theorem HandlerCall.delegate_delegate (c : HandlerCall) : c.delegate.delegate = c.delegate := by
  cases c <;> rfl

theorem callHandler_of_noHandler (c : HandlerCall) {s : State} (h : s.cfg.handler = none) :
    callHandler c s = (illegalFunctionAnswer, s) := by
  rw [callHandler, h]

theorem agentAnswer_of_prescribed (c : HandlerCall) {s : State} {a : HandlerAnswer}
    {rest : List HandlerAnswer} (h : s.env.handlerScript = a :: rest) :
    agentAnswer c s
      = (a, (s.setEnv { s.env with handlerScript := rest }).logCall (.handler c a)) := by
  rw [agentAnswer, h]

section
variable {c : HandlerCall} {s : State} {ops : HandlerOps} (hs : s.cfg.handler = some ops)
include hs

theorem callHandler_of_implemented (h : c.implementedBy ops = true) :
    callHandler c s = agentAnswer c s := by
  simp [callHandler, hs, h]

/-- A call the handler does not implement is answered as the call it delegates to. -/
theorem callHandler_delegate (h : c.implementedBy ops = false) :
    callHandler c s = callHandler c.delegate s := by
  by_cases hd : c.delegate.implementedBy ops = true <;> simp [callHandler, hs, h, hd]

/-- An unimplemented call with nothing to delegate to answers illegal function, with no effect. -/
theorem callHandler_of_unimplemented (hd : c.delegate = c) (h : c.implementedBy ops = false) :
    callHandler c s = (illegalFunctionAnswer, s) := by
  simp [callHandler, hs, hd, h]

end

/-- Settles O54: reads and multiple writes delegate to nothing else, single writes to the multiple write of
one item. -/
theorem handlerDefaults : Obligations.HandlerDefaults := by
  refine fun s ops => ⟨fun c h => ?noHandler, fun hs => ?_⟩
  case noHandler => rw [callHandler_of_noHandler c h]; exact ⟨rfl, rfl⟩
  have hillegal (c : HandlerCall) (hd : c.delegate = c) (h : c.implementedBy ops = false) :
      (callHandler c s).1.exc = 0x01#8 ∧ (callHandler c s).2 = s := by
    rw [callHandler_of_unimplemented hs hd h]; exact ⟨rfl, rfl⟩
  refine ⟨fun a n => hillegal (.readCoils a n) rfl, fun a n => hillegal (.readDiscreteInputs a n) rfl,
    fun a n => hillegal (.readHoldingRegisters a n) rfl,
    fun a n => hillegal (.readInputRegisters a n) rfl,
    fun a n bs => hillegal (.writeMultipleCoils a n bs) rfl,
    fun a n vs => hillegal (.writeMultipleRegisters a n vs) rfl,
    fun a on => callHandler_delegate (c := .writeSingleCoil a on) hs,
    fun a v => callHandler_delegate (c := .writeSingleRegister a v) hs,
    fun c ans rest h hscript => ?implemented⟩
  case implemented => rw [callHandler_of_implemented hs h, agentAnswer_of_prescribed c hscript]

end Sys2Proof.Machine
end

section
/-! PROOF of O58: EXCEPTION is left by RESET alone (60_exceptions.md R404, R405). First the rows that answer or
are refused; then the four things any row but RESET can do in EXCEPTION; then RESET. -/

namespace Sys2Proof.Machine

/-! ### Rows that answer or are refused -/

/-- A row answered, or was refused: beside the refusal mark, the result and the counter of free values,
everything is as it was. -/
def State.Answered (s t : State) : Prop :=
  ∃ mark r n, t = { s with blk := { s.blk with refused := mark }, result := r, draws := n }

theorem State.Answered.refl (s : State) : s.Answered s := ⟨s.blk.refused, s.result, s.draws, rfl⟩

theorem State.Answered.markRefused (s : State) : s.Answered s.markRefused :=
  ⟨true, s.result, s.draws, rfl⟩

theorem State.Answered.setResult (s : State) (r : Result) : s.Answered (s.setResult r) :=
  ⟨s.blk.refused, r, s.draws, rfl⟩

theorem State.Answered.setResult_draw (s : State) (r : Result) : s.Answered (s.setResult r).draw :=
  ⟨s.blk.refused, r, s.draws + 1, rfl⟩

/-! FRAME_ADDRESS, BUFFER_READ and BUFFER_LEN answer in every state: an open value takes a draw, and an index
out of range is refused. -/

section
variable {s t : State}

theorem answered_of_execFrameAddress (h : execFrameAddress s = .next t) : s.Answered t := by
  unfold execFrameAddress at h
  split at h <;> cases h
  · exact .setResult s _
  · exact .setResult_draw s _

theorem answered_of_execBufferRead {i : U16} (h : execBufferRead i s = .next t) : s.Answered t := by
  unfold execBufferRead at h
  split at h
  · cases h; exact .markRefused s
  · split at h <;> cases h <;> exact .setResult_draw s _

theorem answered_of_execBufferLen (h : execBufferLen s = .next t) : s.Answered t := by
  unfold execBufferLen at h
  split at h <;> cases h
  · exact .setResult s _
  · exact .setResult_draw s _

end

/-- Without a frame to answer, a request row is refused. -/
theorem serve_eq_markRefused (fc : Byte) (body : State → Option Byte × State) {s : State}
    (hf : s.blk.st ≠ .frameReady) (hc : s.blk.st ≠ .collision) : serve fc body s = s.markRefused := by
  rcases serve_cases fc body s with ⟨h, -⟩ | ⟨hst, -⟩
  · exact h
  · exact absurd hst (not_or.2 ⟨hf, hc⟩)

theorem execExceptionResponse_refused {s : State} (fc code : Byte) (h : s.blk.st.composing = false) :
    execExceptionResponse fc code s = .next s.markRefused := if_neg (Bool.eq_false_iff.1 h)

/-- SETUP writes the baud rate, the thresholds and the refusal mark, nothing else. -/
theorem setupBaud_only (baud : Nat) (s : State) :
    ∃ rate t15 t35 t1s mark, setupBaud baud s
      = s.setBlk { s.blk with baud := rate, t15 := t15, t35 := t35, t1s := t1s, refused := mark } := by
  rcases setupBaud_cases baud s with h | ⟨-, -, -, h⟩ | ⟨-, -, -, h⟩ <;> exact ⟨_, _, _, _, _, h⟩

/-! ### EXCEPTION -/

/-- Bytes wait unread, behind those the receive stream holds already (R404). -/
def State.queueBytes (s : State) (bs : List Byte) : State :=
  s.setEnv { s.env with rxQueue := s.env.rxQueue ++ bs }

@[simp] theorem State.queueBytes_blk (s : State) (bs : List Byte) : (s.queueBytes bs).blk = s.blk := rfl

@[simp] theorem State.queueBytes_nil (s : State) : s.queueBytes [] = s := by
  rw [State.queueBytes, List.append_nil]; rfl

theorem State.queueBytes_append (s : State) (bs cs : List Byte) :
    (s.queueBytes bs).queueBytes cs = s.queueBytes (bs ++ cs) := by
  rw [State.queueBytes, State.queueBytes, State.setEnv_env, List.append_assoc]; rfl

section
variable {s : State} (hs : s.blk.st = .exception)
include hs

theorem answered_poll_of_exception : s.Answered (poll s) := by
  by_cases h : s.blk.inPoll = true ∨ s.polling = true
  · rw [poll_reentered h]; exact .markRefused s
  · obtain ⟨hi, hp⟩ := not_or.1 h
    rw [poll_of_exception (Bool.eq_false_iff.2 hi) (Bool.eq_false_iff.2 hp) hs]
    exact .setResult s _

/-- R404: no input is read, a byte waits in the stream. -/
theorem arrive_of_exception (b : Byte) : arrive b s = s.queueBytes [b] := by rw [arrive, hs]; rfl

end

theorem arriveAll_of_exception (bs : List Byte) {s : State} (hs : s.blk.st = .exception) :
    arriveAll bs s = s.queueBytes bs := by
  induction bs generalizing s with
  | nil => exact (State.queueBytes_nil s).symm
  | cons b bs ih =>
    rw [arriveAll, arrive_of_exception hs, ih (s := s.queueBytes [b]) hs, State.queueBytes_append]; rfl

/-- The silence that ends a binary frame is not awaited either. -/
theorem silence_arriveAll_of_exception (bs : List Byte) {s : State} (hs : s.blk.st = .exception) :
    silence (arriveAll bs s) = s.queueBytes bs := by
  rw [arriveAll_of_exception bs hs, silence, State.queueBytes_blk, hs]

/-- What a row but RESET does in EXCEPTION (R404): it answers or is refused, sets the station address, sets
the baud rate, or leaves bytes waiting in the receive stream. -/
theorem exec_of_exception_cases {i : Instr} {s t : State} (hs : s.blk.st = .exception)
    (hr : i ≠ .reset) (h : exec i s = .next t) :
    s.Answered t
      ∨ (∃ a, i = .setStationAddress a ∧ t = s.setBlk { s.blk with station := a })
      ∨ (∃ b, i = .setup b ∧ t = setupBaud b.toNat s)
      ∨ ((i.space = .rtuFrame ∨ i.space = .asciiFrame ∨ i.space = .character)
        ∧ ∃ bs, t = s.queueBytes bs) := by
  have hcomposing : s.blk.st.composing = false := by rw [hs]; rfl
  have hidle : s.blk.st ≠ .idle := by simp [hs]
  have hready : s.blk.st ≠ .frameReady := by simp [hs]
  have hcollision : s.blk.st ≠ .collision := by simp [hs]
  cases i
  case reset => exact absurd rfl hr
  case setStationAddress a => cases h; exact .inr (.inl ⟨a, rfl, rfl⟩)
  case setup b => cases h; exact .inr (.inr (.inl ⟨b, rfl, rfl⟩))
  case rtuFrame =>
    cases h; exact .inr (.inr (.inr ⟨.inl rfl, _, silence_arriveAll_of_exception _ hs⟩))
  case asciiFrame =>
    cases h; exact .inr (.inr (.inr ⟨.inr (.inl rfl), _, arriveAll_of_exception _ hs⟩))
  case asciiColon | asciiCr | asciiLf | asciiHexDigit09 | asciiHexDigitUpper | asciiHexDigitLower
      | asciiOther =>
    cases h; exact .inr (.inr (.inr ⟨.inr (.inr rfl), _, arrive_of_exception hs _⟩))
  all_goals left
  case poll => cases h; exact answered_poll_of_exception hs
  case beginSend =>
    rw [exec_beginSend, beginSend_of_other hidle hready hcollision] at h
    cases h; exact .setResult s _
  case send => cases h; rw [sendFrame_of_exception hs]; exact .refl s
  case finished => cases h; rw [finish_of_exception hs]; exact .refl s
  case frameAddress => exact answered_of_execFrameAddress h
  case bufferRead => exact answered_of_execBufferRead h
  case bufferLen => exact answered_of_execBufferLen h
  case setFrameAddress a =>
    cases (exec_setFrameAddress_refused hcomposing a).symm.trans h; exact .markRefused s
  case bufferWrite i v =>
    cases (exec_bufferWrite_refused hcomposing i v).symm.trans h; exact .markRefused s
  case setBufferLen n =>
    cases (exec_setBufferLen_refused hcomposing n).symm.trans h; exact .markRefused s
  case exceptionResponse fc code =>
    cases (execExceptionResponse_refused fc code hcomposing).symm.trans h; exact .markRefused s
  case dispatch => cases h; rw [dispatch_eq_markRefused hready hcollision]; exact .markRefused s
  case readCoils | readDiscreteInputs | readHoldingRegisters | readInputRegisters | writeSingleCoil
      | writeSingleRegister | writeMultipleCoils | writeMultipleRegisters | illegalFunction =>
    cases h; rw [serve_eq_markRefused _ _ hready hcollision]; exact .markRefused s
  case reservedCommand => cases h; exact .markRefused s
  case stationAddress | frameReady | bufferMax | crc16Update | crc16 | lrcUpdate | lrc =>
    cases h; exact .setResult s _

/-- RESET of an admitted configuration starts the engine in DUMP or IDLE, whatever state it was in. -/
theorem construct_st_ne_exception {s : State} (h : Config.valid s.resetCfg = true) :
    (construct s).blk.st ≠ .exception := by
  rcases construct_cases s with ⟨hinvalid, -⟩ | ⟨-, hc⟩
  · simp [hinvalid] at h
  · cases hm : s.resetCfg.mode <;> simp [hc, Block.afterReset, hm]

/-- Settles O58: each of the four things a row can do in EXCEPTION writes only what the statement allows. -/
theorem onlyResetLeavesException : Obligations.OnlyResetLeavesException := by
  refine ⟨fun s _ hvalid => ⟨construct s, rfl, construct_st_ne_exception hvalid⟩,
    fun i s t hs hr h => ?_⟩
  rcases exec_of_exception_cases hs hr h with
    ⟨mark, r, n, rfl⟩ | ⟨a, rfl, rfl⟩ | ⟨b, rfl, ht⟩ | ⟨hspace, bs, rfl⟩
  · exact ⟨rfl, rfl, rfl, rfl, rfl, by simp, by simp, by simp⟩
  · exact ⟨rfl, rfl, rfl, rfl, rfl, fun _ => ⟨a, rfl⟩, by simp, by simp⟩
  · obtain ⟨rate, t15, t35, t1s, mark, hsetup⟩ := setupBaud_only b.toNat s
    obtain rfl := ht.trans hsetup
    exact ⟨rfl, rfl, rfl, rfl, rfl, by simp, fun _ => ⟨b, rfl⟩, by simp⟩
  · exact ⟨rfl, rfl, rfl, rfl, rfl, by simp, by simp, fun _ => hspace⟩

end Sys2Proof.Machine
end

section
/-! PROOF of O13: RESET constructs the block anew, or is refused (70_reset_and_hazards.md R440). The
fields whose value depends on the mode have a lemma each. -/

namespace Sys2Proof.Machine

theorem Block.afterReset_st (c : Config) (b : Block) (now : Nat) :
    (Block.afterReset c b now).st = if c.mode = .rtu then .dump else .idle := by
  cases hm : c.mode <;> simp [Block.afterReset, hm]

theorem Block.afterReset_rtu_thresholds {c : Config} (hm : c.mode = .rtu) (b : Block) (now : Nat) :
    (Block.afterReset c b now).t15 = deriveT15 c c.initBaud
      ∧ (Block.afterReset c b now).t35 = deriveT35 c c.initBaud := by
  simp [Block.afterReset, hm]

theorem Block.afterReset_ascii_threshold {c : Config} (hm : c.mode = .ascii) (b : Block) (now : Nat) :
    (Block.afterReset c b now).t1s = deriveT1s c := by
  simp [Block.afterReset, hm]

/-- RESET with a configuration of R10 and R11: one clock sample, and the block constructed from it. -/
theorem exec_reset_of_valid {s : State} (h : Config.valid s.resetCfg = true) :
    exec .reset s = .next ((State.sampled { s with cfg := s.resetCfg }).setBlk
      (Block.afterReset s.resetCfg s.blk (State.now { s with cfg := s.resetCfg }))) := by
  rcases construct_cases s with ⟨hinvalid, -⟩ | ⟨-, hc⟩
  · simp [hinvalid] at h
  · exact congrArg Host.Outcome.next hc

theorem exec_reset_of_invalid {s : State} (h : Config.valid s.resetCfg = false) :
    exec .reset s = .next s.markRefused := by
  rcases construct_cases s with ⟨-, hc⟩ | ⟨hvalid, -⟩
  · exact congrArg Host.Outcome.next hc
  · simp [hvalid] at h

/-- A configuration with a constant that does not fit in `W` bits is outside R11. -/
theorem Config.valid_eq_false_of_not_fit {c : Config} (h : constantsFit c c.initBaud = false) :
    Config.valid c = false := by
  simp [Config.valid, h]

/-- Settles O13: the block constructed has the thresholds of its mode, and every other field is R440's. -/
theorem resetConstructs : Obligations.ResetConstructs := by
  refine fun s => ⟨fun hvalid => ?admitted,
    fun hfit => exec_reset_of_invalid (Config.valid_eq_false_of_not_fit hfit)⟩
  rw [exec_reset_of_valid hvalid]
  generalize State.now { s with cfg := s.resetCfg } = now
  refine ⟨_, _, _, fun hm => Block.afterReset_rtu_thresholds hm s.blk now,
    fun hm => Block.afterReset_ascii_threshold hm s.blk now, ?_⟩
  rw [← Block.afterReset_st s.resetCfg s.blk now]
  rfl

end Sys2Proof.Machine
end

section
/-! PROOF of O1, O2 and O3: decoding and encoding agree in every space (30_encoding.md). Command words are
`decodeCommand_eq_ok_iff`; here the request PDUs, the responses, the frames and the characters. -/

namespace Sys2Proof

/-! ### Request PDUs -/

/-- Every first byte outside R118's table selects the illegal-function row (R128). -/
theorem decodeRequest_illegalFunction {fc : Byte} (h : isFunctionCode fc = false) (data : List Byte) :
    decodeRequest (fc :: data) = .ok (.illegalFunction fc data) := by
  have hcodes : fc.toNat ≠ 0x01 ∧ fc.toNat ≠ 0x02 ∧ fc.toNat ≠ 0x03 ∧ fc.toNat ≠ 0x04 ∧ fc.toNat ≠ 0x05
      ∧ fc.toNat ≠ 0x06 ∧ fc.toNat ≠ 0x0F ∧ fc.toNat ≠ 0x10 := by
    simpa [isFunctionCode, ← BitVec.toNat_inj] using h
  unfold decodeRequest
  simp only
  split
  any_goals omega
  rfl

theorem decodeRequest_encode {i : Instr} (hsp : i.space = .request) (hwf : i.wellFormed = true) :
    decodeRequest (encode i) = .ok i := by
  cases i
  case illegalFunction fc data =>
    obtain ⟨hfc, -⟩ := Bool.and_eq_true_iff.1 hwf
    exact decodeRequest_illegalFunction (by simpa using hfc) data
  case readCoils | readDiscreteInputs | readHoldingRegisters | readInputRegisters | writeSingleCoil
      | writeSingleRegister | writeMultipleCoils | writeMultipleRegisters => rfl
  all_goals cases hsp

/-- Whatever row a request PDU selects, the PDU is that row's encoding. -/
theorem of_decodeRequest_eq_ok {bytes : List Byte} {i : Instr} (h : decodeRequest bytes = .ok i) :
    encode i = bytes ∧ i.space = .request := by
  cases bytes with
  | nil => cases h
  | cons fc data =>
    by_cases hfc : isFunctionCode fc = true
    · simp only [isFunctionCode, decide_eq_true_eq, List.mem_cons, List.not_mem_nil, or_false] at hfc
      rcases hfc with rfl | rfl | rfl | rfl | rfl | rfl | rfl | rfl <;> cases h <;> exact ⟨rfl, rfl⟩
    · rw [decodeRequest_illegalFunction (Bool.eq_false_iff.2 hfc)] at h
      cases h; exact ⟨rfl, rfl⟩

/-! ### Responses and binary frames -/

theorem of_decodeResponse_eq_ok {bytes : List Byte} {i : Instr} (h : decodeResponse bytes = .ok i) :
    encode i = bytes ∧ i.space = .response := by
  match bytes, h with
  | [fc, code], h =>
    by_cases hfc : fc.getLsbD 7 = true
    · rw [decodeResponse, if_pos hfc] at h
      cases h; exact ⟨rfl, rfl⟩
    · rw [decodeResponse, if_neg hfc] at h
      cases h

theorem decodeRtuFrame_encode (address : Byte) (pdu : List Byte) (lo hi : Byte) :
    decodeRtuFrame (encode (.rtuFrame address pdu lo hi)) = .ok (.rtuFrame address pdu lo hi) := by
  simp [encode, decodeRtuFrame]

theorem of_decodeRtuFrame_eq_ok {bytes : List Byte} {i : Instr} (h : decodeRtuFrame bytes = .ok i) :
    encode i = bytes ∧ i.space = .rtuFrame := by
  cases bytes with
  | nil => cases h
  | cons address rest =>
    rcases hrev : rest.reverse with _ | ⟨hi, _ | ⟨lo, pduRev⟩⟩ <;> rw [decodeRtuFrame, hrev] at h <;> cases h
    have hrest : rest = pduRev.reverse ++ [lo, hi] := by simpa using congrArg List.reverse hrev
    exact ⟨by simp [encode, hrest], rfl⟩

/-! ### Character frames -/

theorem nibbles_extractLsb' (b : Byte) : nibbles (b.extractLsb' 4 4) (b.extractLsb' 0 4) = b :=
  (BitVec.extractLsb'_append_extractLsb'_eq_extractLsb' rfl).trans BitVec.extractLsb'_eq_self

theorem decodeHexBody_hexAll (bs : List Byte) :
    decodeHexBody (hexAll bs ++ [0x0D#8, 0x0A#8]) = .ok bs := by
  induction bs with
  | nil => rfl
  | cons b bs ih =>
    have hhex : hexAll (b :: bs) ++ [0x0D#8, 0x0A#8]
        = hexchar (b.extractLsb' 4 4) :: hexchar (b.extractLsb' 0 4) :: (hexAll bs ++ [0x0D#8, 0x0A#8]) := by
      rfl
    rw [hhex, decodeHexBody, hexval_hexchar, hexval_hexchar, ih]
    exact congrArg (fun c => Except.ok (c :: bs)) (nibbles_extractLsb' b)

theorem decodeAsciiFrame_encode (address : Byte) (pdu : List Byte) (lrc : Byte) :
    decodeAsciiFrame (encode (.asciiFrame address pdu lrc)) = .ok (.asciiFrame address pdu lrc) := by
  rw [encode, decodeAsciiFrame, if_pos rfl, decodeHexBody_hexAll]
  simp

/-! ### Characters -/

/-- The hex digits and every other character are classified once `:`, CR and LF are out (R112). -/
theorem classify_of_ne {c : Byte} (hcolon : c ≠ 0x3A#8) (hcr : c ≠ 0x0D#8) (hlf : c ≠ 0x0A#8) :
    classify c = if isDigit09 c then .asciiHexDigit09 c else if isDigitUpper c then .asciiHexDigitUpper c
      else if isDigitLower c then .asciiHexDigitLower c else .asciiOther c := by
  simp [classify, hcolon, hcr, hlf]

section
variable {c : Byte}

theorem classify_of_digit09 (h : isDigit09 c = true) : classify c = .asciiHexDigit09 c := by
  have hne {d : Byte} (hd : isDigit09 d = false) : c ≠ d := by rintro rfl; simp [h] at hd
  rw [classify_of_ne (hne rfl) (hne rfl) (hne rfl), if_pos h]

theorem classify_of_digitUpper (h : isDigitUpper c = true) : classify c = .asciiHexDigitUpper c := by
  have hne {d : Byte} (hd : isDigitUpper d = false) : c ≠ d := by rintro rfl; simp [h] at hd
  have hrange : 0x41 ≤ c.toNat ∧ c.toNat ≤ 0x46 := of_decide_eq_true h
  have h09 : isDigit09 c = false := decide_eq_false (by omega)
  simp [classify_of_ne (hne (d := 0x3A#8) rfl) (hne rfl) (hne rfl), h09, h]

theorem classify_of_digitLower (h : isDigitLower c = true) : classify c = .asciiHexDigitLower c := by
  have hne {d : Byte} (hd : isDigitLower d = false) : c ≠ d := by rintro rfl; simp [h] at hd
  have hrange : 0x61 ≤ c.toNat ∧ c.toNat ≤ 0x66 := of_decide_eq_true h
  have h09 : isDigit09 c = false := decide_eq_false (by omega)
  have hupper : isDigitUpper c = false := decide_eq_false (by omega)
  simp [classify_of_ne (hne (d := 0x3A#8) rfl) (hne rfl) (hne rfl), h09, hupper, h]

theorem classify_of_other (h : isOtherChar c = true) : classify c = .asciiOther c := by
  simp only [isOtherChar, Bool.not_eq_true', Bool.or_eq_false_iff, decide_eq_false_iff_not] at h
  obtain ⟨⟨⟨⟨⟨h09, hupper⟩, hlower⟩, hcolon⟩, hcr⟩, hlf⟩ := h
  simp [classify_of_ne hcolon hcr hlf, h09, hupper, hlower]

end

theorem decodeCharacter_encode {i : Instr} (hsp : i.space = .character) (hwf : i.wellFormed = true) :
    decodeCharacter (encode i) = .ok i := by
  cases i
  case asciiColon | asciiCr | asciiLf => rfl
  case asciiHexDigit09 => exact congrArg Except.ok (classify_of_digit09 hwf)
  case asciiHexDigitUpper => exact congrArg Except.ok (classify_of_digitUpper hwf)
  case asciiHexDigitLower => exact congrArg Except.ok (classify_of_digitLower hwf)
  case asciiOther => exact congrArg Except.ok (classify_of_other hwf)
  all_goals cases hsp

theorem encode_classify (c : Byte) : encode (classify c) = [c] ∧ (classify c).space = .character := by
  unfold classify
  split
  case isTrue h => subst h; exact ⟨rfl, rfl⟩
  split
  case isTrue h => subst h; exact ⟨rfl, rfl⟩
  split
  case isTrue h => subst h; exact ⟨rfl, rfl⟩
  split_ifs <;> exact ⟨rfl, rfl⟩

theorem of_decodeCharacter_eq_ok {bytes : List Byte} {i : Instr} (h : decodeCharacter bytes = .ok i) :
    encode i = bytes ∧ i.space = .character := by
  match bytes, h with
  | [c], h => cases h; exact encode_classify c

/-! ### Every space -/

/-- Settles O2, a space at a time. -/
theorem decodeEncode : Obligations.DecodeEncode := by
  intro i hwf
  cases hsp : i.space
  case command => exact decodeCommand_eq_ok_iff.2 ⟨hsp, hwf, rfl⟩
  case request => exact decodeRequest_encode hsp hwf
  case character => exact decodeCharacter_encode hsp hwf
  all_goals cases i <;> cases hsp
  case response.exceptionResponse.refl fc code => exact if_pos (Bool.and_eq_true_iff.1 hwf).1
  case rtuFrame.rtuFrame.refl address pdu lo hi => exact decodeRtuFrame_encode address pdu lo hi
  case asciiFrame.asciiFrame.refl address pdu lrc => exact decodeAsciiFrame_encode address pdu lrc

/-- Settles O3, a space at a time. -/
theorem encodeDecode : Obligations.EncodeDecode := by
  intro sp bytes i hsp h
  cases sp
  case asciiFrame => exact absurd rfl hsp
  case command =>
    obtain ⟨hspace, hwf, rfl⟩ := decodeCommand_eq_ok_iff.1 h
    exact ⟨rfl, hspace, fun _ => hwf⟩
  case request => exact (of_decodeRequest_eq_ok h).imp_right fun hspace => ⟨hspace, by simp⟩
  case response => exact (of_decodeResponse_eq_ok h).imp_right fun hspace => ⟨hspace, by simp⟩
  case rtuFrame => exact (of_decodeRtuFrame_eq_ok h).imp_right fun hspace => ⟨hspace, by simp⟩
  case character => exact (of_decodeCharacter_eq_ok h).imp_right fun hspace => ⟨hspace, by simp⟩

/-- Settles O1: thirteen closed words, each read by its decoder. -/
theorem commandWordsDecode : Obligations.CommandWordsDecode := by
  unfold Obligations.CommandWordsDecode
  decide

end Sys2Proof
end

section
/-! What a command, a request or a response row does to the machine, said once: it is a sequence of the
updates of `HostUpdate` (41_engine_commands.md R203 to R218, 44_dispatcher.md), POLL and RESET aside. The
proofs of O24, O55, O56 and O60 follow these updates instead of the commands. -/

namespace Sys2Proof.Machine

/-! ### Calls that leave the machine alone -/

/-- An agent answered outside its primitive's range (R91). -/
def Call.OutOfRange (c : Call) : Prop :=
  (∃ offered k, c = .write offered (.accepted k) ∧ offered.length < k)
    ∨ ∃ n bs, (c = .read n (.bytes bs) ∨ c = .discard n (.bytes bs)) ∧ n < bs.length

/-- Calls were made between `s` and `t`; whether one of them was answered out of range is `bad`. -/
def CallsMade (bad : Prop) (s t : State) : Prop :=
  ∃ cs, t.env.calls = s.env.calls ++ cs ∧ ((∃ c ∈ cs, c.OutOfRange) ↔ bad)

theorem CallsMade.none {s t : State} (h : t.env.calls = s.env.calls) : CallsMade False s t :=
  ⟨[], by simpa using h, by simp⟩

theorem CallsMade.one {bad : Prop} {s t : State} {c : Call} (h : t.env.calls = s.env.calls ++ [c])
    (hc : c.OutOfRange ↔ bad) : CallsMade bad s t := ⟨[c], h, by simpa using hc⟩

theorem CallsMade.trans {bad : Prop} {s t u : State} (h : CallsMade False s t) (k : CallsMade bad t u) :
    CallsMade bad s u := by
  obtain ⟨cs, hcs, hf⟩ := h
  obtain ⟨ds, hds, hb⟩ := k
  refine ⟨cs ++ ds, by rw [hds, hcs, List.append_assoc], ?_⟩
  rw [← hb]
  simp only [List.mem_append, or_and_right, exists_or, hf, false_or]

theorem CallsMade.congr {bad bad' : Prop} {s t : State} (h : CallsMade bad s t) (hb : bad ↔ bad') :
    CallsMade bad' s t := by
  obtain ⟨cs, hcs, hbad⟩ := h
  exact ⟨cs, hcs, hbad.trans hb⟩

/-- The streams hold no more for a POLL to consume than they did, and a stream that ends still does (R222). -/
structure Drains (s t : State) : Prop where
  pending : t.env.pending ≤ s.env.pending
  endless : s.env.rxEndless = none → t.env.rxEndless = none

theorem Drains.refl (s : State) : Drains s s := ⟨Nat.le_refl _, id⟩

theorem Drains.trans {s t u : State} (h : Drains s t) (k : Drains t u) : Drains s u :=
  ⟨k.pending.trans h.pending, k.endless ∘ h.endless⟩

/-- The machine is as it was; calls were made, one of them answered out of range if `bad`, and the agents,
the last result and the free values may have moved on. -/
structure Called (bad : Prop) (s t : State) : Prop where
  blk : t.blk = s.blk
  cfg : t.cfg = s.cfg
  resetCfg : t.resetCfg = s.resetCfg
  polling : t.polling = s.polling
  callback : t.env.callback = s.env.callback
  calls : CallsMade bad s t
  streams : Drains s t

theorem Called.congr {bad bad' : Prop} {s t : State} (h : Called bad s t) (hb : bad ↔ bad') :
    Called bad' s t := ⟨h.blk, h.cfg, h.resetCfg, h.polling, h.callback, h.calls.congr hb, h.streams⟩

/-- The machine is as it was, and no call was answered out of range. -/
abbrev SameInstance : State → State → Prop := Called False

theorem SameInstance.refl (s : State) : SameInstance s s :=
  ⟨rfl, rfl, rfl, rfl, rfl, .none rfl, .refl s⟩

theorem Called.trans {bad : Prop} {s t u : State} (h : SameInstance s t) (k : Called bad t u) :
    Called bad s u :=
  ⟨k.blk.trans h.blk, k.cfg.trans h.cfg, k.resetCfg.trans h.resetCfg, k.polling.trans h.polling,
    k.callback.trans h.callback, h.calls.trans k.calls, h.streams.trans k.streams⟩

theorem sameInstance_setResult (s : State) (r : Result) : SameInstance s (s.setResult r) :=
  ⟨rfl, rfl, rfl, rfl, rfl, .none rfl, Nat.le_refl _, id⟩

theorem sameInstance_draw (s : State) : SameInstance s s.draw :=
  ⟨rfl, rfl, rfl, rfl, rfl, .none rfl, Nat.le_refl _, id⟩

theorem not_outOfRange_handler (c : HandlerCall) (a : HandlerAnswer) :
    (Call.handler c a).OutOfRange ↔ False := by simp [Call.OutOfRange]

theorem agentAnswer_sameInstance (c : HandlerCall) (s : State) :
    SameInstance s (agentAnswer c s).2 := by
  unfold agentAnswer
  split <;> exact ⟨rfl, rfl, rfl, rfl, rfl, .one rfl (not_outOfRange_handler c _),
    Nat.le_refl _, id⟩

theorem callHandler_sameInstance (c : HandlerCall) (s : State) :
    SameInstance s (callHandler c s).2 := by
  unfold callHandler
  split
  · exact .refl s
  · split_ifs
    · exact agentAnswer_sameInstance c s
    · exact agentAnswer_sameInstance c.delegate s
    · exact .refl s

/-! ### The updates -/

/-- Lengths and cells that a composed PDU may have (R37, R42, R82). -/
abbrev PduOk (c : Config) (len : Nat) (buf : Memory) : Prop :=
  len ≤ c.bufferMax ∧ Memory.wf buf = true ∧ Memory.below buf c.bufferMax = true

/-- One update of the machine by a command. Each change of state is followed by its notification (R220). -/
inductive HostUpdate (s : State) : State → Prop
  | mark : HostUpdate s s.markRefused
  | agents {t : State} (h : SameInstance s t) : HostUpdate s t
  | station (a : Byte) : HostUpdate s (s.setBlk { s.blk with station := a })
  | baud (rate : Nat) : HostUpdate s (setupBaud rate s)
  | compose (faddr : Byte) (len : Nat) (buf : Memory) (hst : s.blk.st.composing = true)
      (hok : Config.valid s.cfg = true → PduOk s.cfg s.blk.len s.blk.buf → PduOk s.cfg len buf) :
      HostUpdate s (s.setBlk { s.blk with faddr := faddr, len := len, buf := buf })
  | acquire (hst : s.blk.st = .idle ∨ s.blk.st = .frameReady) :
      HostUpdate s (statusUpdate (s.goto .queue))
  | release (hst : s.blk.st = .frameReady ∨ s.blk.st = .queue) :
      HostUpdate s (statusUpdate (s.goto .idle))
  | abort (hst : s.blk.st = .collision) : HostUpdate s (statusUpdate (leaveCollision s))
  | transmit (hst : s.blk.st = .queue) (hlen : s.blk.len < s.cfg.bufferMax) :
      HostUpdate s (statusUpdate (startTransmit s))
  | fatal (hst : s.blk.st = .queue) : HostUpdate s (statusUpdate (s.goto .exception))

/-- Updates by commands, any number of them. -/
abbrev HostUpdates : State → State → Prop := Relation.ReflTransGen HostUpdate

/-- What every update keeps, any number of them keeps. -/
theorem HostUpdates.keeps {P : State → Prop} (hupdate : ∀ s t, P s → HostUpdate s t → P t) {s t : State}
    (h : HostUpdates s t) (hs : P s) : P t := by
  induction h with
  | refl => exact hs
  | tail _ h ih => exact hupdate _ _ ih h

theorem HostUpdate.updates {s t : State} (h : HostUpdate s t) : HostUpdates s t := .single h

theorem Called.updates {s t : State} (h : SameInstance s t) : HostUpdates s t :=
  (HostUpdate.agents h).updates

/-! ### BEGIN_SEND, SEND and FINISHED -/

theorem beginSend_updates (s : State) : HostUpdates s (beginSend s).2 := by
  rcases beginSend_cases s with ⟨h, hst⟩ | ⟨h, -⟩ | ⟨h, -⟩ <;> rw [h]
  exact (HostUpdate.acquire hst).updates

theorem leaveCollision_st_ne (s : State) : (leaveCollision s).blk.st ≠ .collision := by
  cases h : s.cfg.mode <;> simp [leaveCollision, h]

theorem startTransmit_st_ne (s : State) : (startTransmit s).blk.st ≠ .queue := by
  cases h : s.cfg.mode <;> simp [startTransmit, h]

theorem sendFrame_updates (s : State) : HostUpdates s (sendFrame s) := by
  rcases sendFrame_cases s with ⟨hst, hlen, h⟩ | ⟨hst, -, h⟩ | ⟨hst, h⟩ | ⟨-, h⟩ | ⟨-, -, -, h⟩ <;> rw [h]
  · rw [endCommand_of_st_ne (hst ▸ startTransmit_st_ne s)]
    exact (HostUpdate.transmit hst hlen).updates
  · rw [endCommand_of_st_ne (by simp [hst])]
    exact (HostUpdate.fatal hst).updates
  · rw [endCommand_of_st_ne (hst ▸ leaveCollision_st_ne s)]
    exact (HostUpdate.abort hst).updates
  · exact HostUpdate.mark.updates

theorem finish_updates (s : State) : HostUpdates s (finish s) := by
  rcases finish_cases s with ⟨hst, -⟩ | ⟨hst, h⟩ | ⟨-, h⟩ | ⟨-, -, -, -, h⟩
  · rw [finish_of_held hst]
    exact (HostUpdate.release hst).updates
  · rw [h, endCommand_of_st_ne (hst ▸ leaveCollision_st_ne s)]
    exact (HostUpdate.abort hst).updates
  · rw [h]
  · rw [h]; exact HostUpdate.mark.updates

/-! ### The functions of the dispatcher -/

/-- What a function of the dispatcher does: handler calls, then a response composed in place. -/
inductive Composed (s : State) : State → Prop
  | intro {u : State} (h : SameInstance s u) (len : Nat) (buf : Memory)
      (hok : Config.valid s.cfg = true → PduOk s.cfg s.blk.len s.blk.buf → PduOk s.cfg len buf) :
      Composed s (u.setBlk { s.blk with len := len, buf := buf })

theorem Called.composed {s t : State} (h : SameInstance s t) : Composed s t := by
  have ht : t = t.setBlk { s.blk with len := s.blk.len, buf := s.blk.buf } := by rw [← h.blk]; rfl
  rw [ht]; exact .intro h _ _ fun _ => id

theorem Composed.st {s t : State} (h : Composed s t) : t.blk.st = s.blk.st := by
  obtain ⟨-, len, buf, -⟩ := h; rfl

theorem Composed.callback {s t : State} (h : Composed s t) : t.env.callback = s.env.callback := by
  obtain ⟨h, len, buf, -⟩ := h; exact h.callback

theorem Composed.calls {s t : State} (h : Composed s t) : CallsMade False s t := by
  obtain ⟨h, len, buf, -⟩ := h; exact h.calls

theorem Composed.streams {s t : State} (h : Composed s t) : Drains s t := by
  obtain ⟨h, len, buf, -⟩ := h
  exact ⟨h.streams.pending, h.streams.endless⟩

theorem Composed.updates {s t : State} (h : Composed s t) (hst : s.blk.st.composing = true) :
    HostUpdates s t := by
  obtain ⟨h, len, buf, hok⟩ := h
  rw [← h.blk, ← h.cfg] at hok
  rw [← h.blk] at hst ⊢
  exact h.updates.tail (.compose _ len buf hst hok)

theorem Config.bufferMax_ge {c : Config} (h : Config.valid c = true) : 8 ≤ c.bufferMax := by
  simp only [Config.valid, Config.inRange, Bool.and_eq_true, decide_eq_true_eq] at h
  omega

/-- A PDU with bytes written inside the buffer, and a length inside it. -/
theorem PduOk.writeBytes {c : Config} {len n i : Nat} {buf : Memory} (h : PduOk c len buf)
    (hn : n ≤ c.bufferMax) (bs : List Byte) (hi : i + bs.length ≤ c.bufferMax) :
    PduOk c n (Memory.writeBytes buf i bs) :=
  ⟨hn, Memory.wf_writeBytes bs buf i h.2.1, Memory.below_writeBytes bs buf i _ h.2.2 hi⟩

/-- A response that the validator of a read admits fits the buffer. -/
theorem putReadResponse_composed {s u : State} (h : SameInstance s u) {payload : List Byte}
    (hfit : 2 + payload.length ≤ s.cfg.bufferMax) : Composed s (putReadResponse payload u) := by
  have he : putReadResponse payload u = u.setBlk { s.blk with
      len := 2 + payload.length
      buf := Memory.writeBytes s.blk.buf 1 (BitVec.ofNat 8 payload.length :: payload) } := by
    rw [← h.blk]; rfl
  rw [he]
  exact .intro h _ _ fun _ hok => hok.writeBytes hfit _ (by rw [List.length_cons]; omega)

theorem readValidator_eq_zero {size : U16 → Nat} {data : List Byte} {n : Nat}
    (h : readValidator size data n = 0#8) :
    data.length = 4 ∧ (reqCount data).toNat ≠ 0 ∧ 2 + size (reqCount data) ≤ n := by
  unfold readValidator at h
  split_ifs at h
  · exact absurd h (by decide)
  · exact absurd h (by decide)
  · exact absurd h (by decide)
  · omega

theorem bytesOfWords_length (regs : List U16) : (bytesOfWords regs).length = 2 * regs.length := by
  induction regs with
  | nil => rfl
  | cons r rs ih => simp [bytesOfWords, be16Bytes] at ih ⊢; omega

/-- READ_COILS to READ_INPUT_REGISTERS, once (R358, R360 to R363): a read whose response needs `size` data
bytes, answered by `items` items of which `wanted` are asked for, laid out as `payload`. -/
def readThrough (size wanted : U16 → Nat) (items : HandlerAnswer → Nat)
    (payload : HandlerAnswer → List Byte) (call : U16 → U16 → HandlerCall) (data : List Byte) (s : State) :
    Option Byte × State :=
  if readValidator size data s.cfg.bufferMax ≠ 0#8 then
    (some (readValidator size data s.cfg.bufferMax), s)
  else
    match callHandler (call (reqAddress data) (reqCount data)) s with
    | (a, t) =>
      if a.exc ≠ 0#8 then (some a.exc, t)
      else if items a ≠ wanted (reqCount data) then (none, t)
      else (some 0#8, putReadResponse (payload a) t)

theorem readRegisters_eq (call : U16 → U16 → HandlerCall) (data : List Byte) :
    readRegisters call data
      = readThrough registerSize BitVec.toNat (fun a => a.regs.length) (fun a => bytesOfWords a.regs)
          call data := rfl

section
variable (size wanted : U16 → Nat) (items : HandlerAnswer → Nat) (payload : HandlerAnswer → List Byte)
  (call : U16 → U16 → HandlerCall) (data : List Byte) {s u : State} {a : HandlerAnswer}

theorem readThrough_of_invalid (h : readValidator size data s.cfg.bufferMax ≠ 0#8) :
    readThrough size wanted items payload call data s
      = (some (readValidator size data s.cfg.bufferMax), s) := if_pos h

section
variable (hv : readValidator size data s.cfg.bufferMax = 0#8)
  (hcall : callHandler (call (reqAddress data) (reqCount data)) s = (a, u))
include hv hcall

theorem readThrough_of_exception (hexc : a.exc ≠ 0#8) :
    readThrough size wanted items payload call data s = (some a.exc, u) := by
  simp [readThrough, hv, hcall, hexc]

theorem readThrough_of_wrong_length (hexc : a.exc = 0#8) (hlen : items a ≠ wanted (reqCount data)) :
    readThrough size wanted items payload call data s = (none, u) := by
  simp [readThrough, hv, hcall, hexc, hlen]

theorem readThrough_of_answer (hexc : a.exc = 0#8) (hlen : items a = wanted (reqCount data)) :
    readThrough size wanted items payload call data s = (some 0#8, putReadResponse (payload a) u) := by
  simp [readThrough, hv, hcall, hexc, hlen]

end

theorem readThrough_composed
    (hsize : ∀ a, items a = wanted (reqCount data) → (payload a).length = size (reqCount data))
    (s : State) : Composed s (readThrough size wanted items payload call data s).2 := by
  by_cases hv : readValidator size data s.cfg.bufferMax = 0#8
  · rcases hcall : callHandler (call (reqAddress data) (reqCount data)) s with ⟨a, u⟩
    have hsame : SameInstance s u := by
      simpa [hcall] using callHandler_sameInstance (call (reqAddress data) (reqCount data)) s
    by_cases hexc : a.exc = 0#8
    · by_cases hlen : items a = wanted (reqCount data)
      · rw [readThrough_of_answer size wanted items payload call data hv hcall hexc hlen]
        exact putReadResponse_composed hsame (hsize a hlen ▸ (readValidator_eq_zero hv).2.2)
      · rw [readThrough_of_wrong_length size wanted items payload call data hv hcall hexc hlen]
        exact hsame.composed
    · rw [readThrough_of_exception size wanted items payload call data hv hcall hexc]
      exact hsame.composed
  · rw [readThrough_of_invalid size wanted items payload call data hv]
    exact (SameInstance.refl s).composed

end

theorem readBits_composed (call : U16 → U16 → HandlerCall) (data : List Byte) (s : State) :
    Composed s (readBits call data s).2 :=
  readThrough_composed _ _ _ _ call data (fun _ h => h) s

theorem readRegisters_composed (call : U16 → U16 → HandlerCall) (data : List Byte) (s : State) :
    Composed s (readRegisters call data s).2 :=
  readRegisters_eq call data ▸ readThrough_composed registerSize BitVec.toNat (fun a => a.regs.length)
    (fun a => bytesOfWords a.regs) call data
    (fun a h => (bytesOfWords_length a.regs).trans (congrArg (2 * ·) h)) s

section
variable {c : HandlerCall} {s u : State} {a : HandlerAnswer} (hcall : callHandler c s = (a, u))
include hcall

theorem writeThrough_of_exception (hexc : a.exc ≠ 0#8) : writeThrough c s = (some a.exc, u) := by
  simp [writeThrough, hcall, hexc]

theorem writeThrough_of_success (hexc : a.exc = 0#8) : writeThrough c s = (some 0#8, u.setLen 5) := by
  simp [writeThrough, hcall, hexc]

end

theorem writeThrough_composed (c : HandlerCall) (s : State) : Composed s (writeThrough c s).2 := by
  rcases hcall : callHandler c s with ⟨a, u⟩
  have hsame : SameInstance s u := by simpa [hcall] using callHandler_sameInstance c s
  by_cases hexc : a.exc = 0#8
  · have he : u.setLen 5 = u.setBlk { s.blk with len := 5, buf := s.blk.buf } := by
      rw [← hsame.blk]; rfl
    rw [writeThrough_of_success hcall hexc, he]
    exact .intro hsame _ _ fun hvalid hok => ⟨(Config.bufferMax_ge hvalid).trans' (by omega), hok.2⟩
  · rw [writeThrough_of_exception hcall hexc]
    exact hsame.composed

theorem function05_composed (data : List Byte) (s : State) : Composed s (function05 data s).2 := by
  unfold function05
  split_ifs
  · exact (SameInstance.refl s).composed
  · exact (SameInstance.refl s).composed
  · exact writeThrough_composed _ s

theorem function06_composed (data : List Byte) (s : State) : Composed s (function06 data s).2 := by
  unfold function06
  split_ifs
  · exact (SameInstance.refl s).composed
  · exact writeThrough_composed _ s

theorem function0F_composed (data : List Byte) (s : State) : Composed s (function0F data s).2 := by
  by_cases hv : writeMultipleValidator bitSize data ≠ 0#8
  · rw [show function0F data s = _ from if_pos hv]
    exact (SameInstance.refl s).composed
  · rw [show function0F data s = _ from if_neg hv]
    exact writeThrough_composed _ s

theorem function10_composed (data : List Byte) (s : State) : Composed s (function10 data s).2 := by
  by_cases hv : writeMultipleValidator registerSize data ≠ 0#8
  · rw [show function10 data s = _ from if_pos hv]
    exact (SameInstance.refl s).composed
  · rw [show function10 data s = _ from if_neg hv]
    exact writeThrough_composed _ s

theorem functionOf_composed (fc : Byte) (data : List Byte) (s : State) :
    Composed s (functionOf fc data s).2 := by
  generalize hf : functionOf fc data = f
  unfold functionOf at hf
  split at hf <;> subst hf
  · exact readBits_composed _ data s
  · exact readBits_composed _ data s
  · exact readRegisters_composed _ data s
  · exact readRegisters_composed _ data s
  · exact function05_composed data s
  · exact function06_composed data s
  · exact function0F_composed data s
  · exact function10_composed data s
  · exact (SameInstance.refl s).composed

/-! ### Requests -/

theorem beginSend_composing {s : State} (h : s.blk.st = .frameReady ∨ s.blk.st = .collision) :
    (beginSend s).2.blk.st.composing = true := by
  rcases h with h | h
  · rw [beginSend_of_acquirable (.inr h)]; simp [St.composing]
  · rw [beginSend_of_collision h, h]; rfl

theorem encodeException_updates {s : State} (fc exc : Byte) (hst : s.blk.st.composing = true) :
    HostUpdates s (encodeException fc exc s) := by
  rw [encodeException_eq]
  refine (HostUpdate.compose s.blk.faddr 2 _ hst fun hvalid hok => ?_).updates
  have hmax := Config.bufferMax_ge hvalid
  exact hok.writeBytes (by omega) _ (by simp; omega)

theorem handBack_updates {s : State} (fc exc : Byte) (hst : s.blk.st.composing = true) :
    HostUpdates s (handBack fc exc s) := by
  unfold handBack
  split_ifs
  · exact finish_updates s
  · exact (encodeException_updates fc exc hst).trans (sendFrame_updates _)
  · exact sendFrame_updates s

theorem abandon_updates {s u : State} (hcallback : u.env.callback = s.env.callback)
    (hcalls : CallsMade False s u) (hstreams : Drains s u) : HostUpdates s (abandon s u) := by
  have hsame : SameInstance s { s with env := u.env, draws := u.draws } :=
    ⟨rfl, rfl, rfl, rfl, hcallback, hcalls, hstreams.pending, hstreams.endless⟩
  exact hsame.updates.tail .mark

theorem statusUpdate_callback (s : State) : (statusUpdate s).env.callback = s.env.callback := by
  obtain ⟨_, _, h⟩ := statusUpdate_only s; rw [h]; rfl

theorem statusUpdate_streams (s : State) : Drains s (statusUpdate s) := by
  obtain ⟨_, _, h⟩ := statusUpdate_only s
  rw [h]; exact ⟨Nat.le_refl _, id⟩

/-- A status update records a notification at most. -/
theorem statusUpdate_calls (s : State) : CallsMade False s (statusUpdate s) := by
  unfold statusUpdate
  split
  · exact .one rfl (by simp [Call.OutOfRange])
  · exact .none rfl

theorem beginSend_calls (s : State) : CallsMade False s (beginSend s).2 := by
  rcases beginSend_cases s with ⟨h, -⟩ | ⟨h, -⟩ | ⟨h, -⟩ <;> rw [h]
  · exact statusUpdate_calls (s.goto .queue)
  · exact .none rfl
  · exact .none rfl

theorem beginSend_streams (s : State) : Drains s (beginSend s).2 := by
  rcases beginSend_cases s with ⟨h, -⟩ | ⟨h, -⟩ | ⟨h, -⟩ <;> rw [h]
  · obtain ⟨hpending, hendless⟩ := statusUpdate_streams (s.goto .queue)
    exact ⟨hpending, hendless⟩
  · exact .refl s
  · exact .refl s

theorem beginSend_callback (s : State) : (beginSend s).2.env.callback = s.env.callback := by
  rcases beginSend_cases s with ⟨h, -⟩ | ⟨h, -⟩ | ⟨h, -⟩ <;> rw [h]
  exact statusUpdate_callback _

theorem serve_updates (fc : Byte) {body : State → Option Byte × State}
    (hbody : ∀ u, Composed u (body u).2) (s : State) : HostUpdates s (serve fc body s) := by
  rcases serve_cases fc body s with ⟨h, -⟩ | ⟨hst, ⟨u, hu, h⟩ | ⟨exc, u, hu, h⟩⟩ <;> rw [h]
  · exact HostUpdate.mark.updates
  · have hc : Composed (beginSend s).2 u := by simpa [hu] using hbody (beginSend s).2
    exact abandon_updates (hc.callback.trans (beginSend_callback s)) ((beginSend_calls s).trans hc.calls)
      ((beginSend_streams s).trans hc.streams)
  · have hc : Composed (beginSend s).2 u := by simpa [hu] using hbody (beginSend s).2
    have hq := beginSend_composing hst
    exact ((beginSend_updates s).trans (hc.updates hq)).trans (handBack_updates fc exc (hc.st ▸ hq))

theorem dispatch_updates (s : State) : HostUpdates s (dispatch s) := by
  by_cases hst : s.blk.st = .frameReady ∨ s.blk.st = .collision
  · cases hpdu : s.pdu with
    | nil =>
      rw [dispatch_of_empty hst (s.pdu_eq_nil_iff.1 hpdu)]
      exact finish_updates s
    | cons fc data =>
      have h : dispatch s = serve fc (functionOf fc data) s.draw := by
        rcases hst with hst | hst <;> simp [dispatch, hst, hpdu]
      rw [h]
      exact (sameInstance_draw s).updates.trans (serve_updates fc (functionOf_composed fc data) s.draw)
  · obtain ⟨hf, hc⟩ := not_or.1 hst
    rw [dispatch_eq_markRefused hf hc]
    exact HostUpdate.mark.updates

/-! ### Every row of the host -/

theorem setResult_updates (s : State) (r : Result) : HostUpdates s (s.setResult r) :=
  (sameInstance_setResult s r).updates

theorem setResult_draw_updates (s : State) (r : Result) : HostUpdates s (s.setResult r).draw :=
  Called.updates ((sameInstance_setResult s r).trans (sameInstance_draw _))

/-- The accessors answer, and BUFFER_READ may be refused. -/
theorem execAccessor_updates {i : Instr} {s t : State}
    (hi : i = .frameAddress ∨ (∃ k, i = .bufferRead k) ∨ i = .bufferLen) (h : exec i s = .next t) :
    HostUpdates s t := by
  rcases hi with rfl | ⟨k, rfl⟩ | rfl
  · simp only [exec, execFrameAddress] at h
    split at h <;> cases h
    · exact setResult_updates s _
    · exact setResult_draw_updates s _
  · simp only [exec, execBufferRead] at h
    split at h
    · cases h; exact HostUpdate.mark.updates
    · split at h <;> cases h <;> exact setResult_draw_updates s _
  · simp only [exec, execBufferLen] at h
    split at h <;> cases h
    · exact setResult_updates s _
    · exact setResult_draw_updates s _

section
variable {s t : State}

theorem execSetFrameAddress_updates (a : Byte) (h : exec (.setFrameAddress a) s = .next t) :
    HostUpdates s t := by
  cases hst : s.blk.st.composing
  · cases (exec_setFrameAddress_refused hst a).symm.trans h
    exact HostUpdate.mark.updates
  · cases (exec_setFrameAddress_of_composing hst a).symm.trans h
    exact (HostUpdate.compose a s.blk.len s.blk.buf hst fun _ => id).updates

theorem execSetBufferLen_updates (n : U16) (h : exec (.setBufferLen n) s = .next t) :
    HostUpdates s t := by
  cases hst : s.blk.st.composing
  · cases (exec_setBufferLen_refused hst n).symm.trans h
    exact HostUpdate.mark.updates
  · by_cases hn : n.toNat ≤ s.cfg.bufferMax
    · cases (exec_setBufferLen_of_composing hst hn).symm.trans h
      exact (HostUpdate.compose s.blk.faddr n.toNat s.blk.buf hst fun _ hok => ⟨hn, hok.2⟩).updates
    · cases (exec_setBufferLen_outOfRange (Nat.lt_of_not_le hn)).symm.trans h
      exact HostUpdate.mark.updates

theorem execBufferWrite_updates (i : U16) (v : Byte) (h : exec (.bufferWrite i v) s = .next t) :
    HostUpdates s t := by
  cases hst : s.blk.st.composing
  · cases (exec_bufferWrite_refused hst i v).symm.trans h
    exact HostUpdate.mark.updates
  · by_cases hi : i.toNat < s.cfg.bufferMax
    · cases (exec_bufferWrite_of_composing hst v hi).symm.trans h
      exact (HostUpdate.compose s.blk.faddr s.blk.len (Memory.writeBytes s.blk.buf i.toNat [v]) hst
        fun _ hok => hok.writeBytes hok.1 [v] hi).updates
    · cases (exec_bufferWrite_outOfRange v (Nat.le_of_not_lt hi)).symm.trans h
      exact HostUpdate.mark.updates

theorem execExceptionResponse_updates (fc code : Byte)
    (h : exec (.exceptionResponse fc code) s = .next t) : HostUpdates s t := by
  cases hst : s.blk.st.composing
  · cases (execExceptionResponse_refused fc code hst).symm.trans h
    exact HostUpdate.mark.updates
  · cases (if_pos hst : exec (.exceptionResponse fc code) s = _).symm.trans h
    exact encodeException_updates fc code hst

end

/-- What a row of the host does, POLL and RESET aside. -/
theorem exec_updates {i : Instr} {s t : State}
    (hi : i.space = .command ∨ i.space = .request ∨ i.space = .response) (hp : i ≠ .poll)
    (hr : i ≠ .reset) (h : exec i s = .next t) : HostUpdates s t := by
  cases i
  case reset => exact absurd rfl hr
  case poll => exact absurd rfl hp
  case beginSend => cases h; exact (beginSend_updates s).trans (setResult_updates _ _)
  case send => cases h; exact sendFrame_updates s
  case finished => cases h; exact finish_updates s
  case setStationAddress a => cases h; exact (HostUpdate.station a).updates
  case setup baud => cases h; exact (HostUpdate.baud baud.toNat).updates
  case dispatch => cases h; exact dispatch_updates s
  case reservedCommand => cases h; exact HostUpdate.mark.updates
  case frameAddress | bufferRead | bufferLen => exact execAccessor_updates (by simp) h
  case setFrameAddress a => exact execSetFrameAddress_updates a h
  case setBufferLen n => exact execSetBufferLen_updates n h
  case bufferWrite i v => exact execBufferWrite_updates i v h
  case exceptionResponse fc code => exact execExceptionResponse_updates fc code h
  case stationAddress | frameReady | bufferMax | crc16Update | crc16 | lrcUpdate | lrc =>
    cases h; exact setResult_updates s _
  case readCoils | readDiscreteInputs => cases h; exact serve_updates _ (readBits_composed _ _) s
  case readHoldingRegisters | readInputRegisters =>
    cases h; exact serve_updates _ (readRegisters_composed _ _) s
  case writeSingleCoil data => cases h; exact serve_updates _ (function05_composed data) s
  case writeSingleRegister data => cases h; exact serve_updates _ (function06_composed data) s
  case writeMultipleCoils data => cases h; exact serve_updates _ (function0F_composed data) s
  case writeMultipleRegisters data => cases h; exact serve_updates _ (function10_composed data) s
  case illegalFunction => cases h; exact serve_updates _ (fun u => (SameInstance.refl u).composed) s
  case rtuFrame | asciiFrame | asciiColon | asciiCr | asciiLf | asciiHexDigit09 | asciiHexDigitUpper
      | asciiHexDigitLower | asciiOther => simp [Instr.space] at hi

/-! ### The frame-ready callback -/

/-- Every row has a next state: the model stops nowhere. -/
theorem exec_eq_next (i : Instr) (s : State) : exec i s = .next (stateOf s (exec i s)) := by
  cases i
  case frameAddress | setFrameAddress | bufferRead | bufferWrite | bufferLen | setBufferLen
      | exceptionResponse =>
    simp only [exec, execFrameAddress, execSetFrameAddress, execBufferRead, execBufferWrite,
      execBufferLen, execSetBufferLen, execExceptionResponse]
    split_ifs <;> rfl
  all_goals rfl

/-- A command of the callback is executed, POLL refused (R225); anything else is no command (R141). -/
theorem callbackCommand_cases (i : Instr) (s : State) :
    (i.space = .command ∧ i ≠ .poll ∧ exec i s = .next (callbackCommand i s))
      ∨ ((i.space ≠ .command ∨ i = .poll) ∧ callbackCommand i s = s.markRefused) := by
  cases i
  case poll => exact .inr ⟨.inr rfl, rfl⟩
  case reset | beginSend | send | finished | stationAddress | setStationAddress | frameReady
      | frameAddress | setFrameAddress | bufferRead | bufferWrite | bufferLen | setBufferLen | bufferMax
      | setup | crc16Update | crc16 | lrcUpdate | lrc | dispatch | reservedCommand =>
    exact .inl ⟨rfl, Instr.noConfusion, exec_eq_next _ s⟩
  all_goals exact .inr ⟨.inl Space.noConfusion, rfl⟩

/-- What a property of the machine must survive to survive the callback: a RESET, and every update. -/
theorem callbackWords_keeps {P : State → Prop} (hreset : ∀ s, P s → P (construct s))
    (hupdate : ∀ s t, P s → HostUpdate s t → P t) (words : List (List Byte)) {s : State} (hs : P s) :
    P (callbackWords words s) := by
  induction words generalizing s with
  | nil => exact hs
  | cons w ws ih =>
    cases hw : decodeCommand w with
    | error e => rw [callbackWords, hw]; exact ih (hupdate _ _ hs .mark)
    | ok i =>
      rw [callbackWords, hw]
      refine ih ?_
      rcases callbackCommand_cases i s with ⟨hsp, hp, h⟩ | ⟨-, h⟩
      · by_cases hr : i = .reset
        · subst hr; exact hreset s hs
        · exact (exec_updates (.inl hsp) hp hr h).keeps hupdate hs
      · rw [h]; exact hupdate _ _ hs .mark

/-- Entering FRAME_READY: the dispatcher's updates, or those of the callback and its RESETs (R219). -/
theorem enterFrameReady_keeps {P : State → Prop} (hreset : ∀ s, P s → P (construct s))
    (hupdate : ∀ s t, P s → HostUpdate s t → P t)
    (hpop : ∀ s rest, P s → P ((s.setEnv { s.env with callback := rest }).logCall .frameReady))
    {s : State} (hs : P (s.goto .frameReady)) : P (enterFrameReady s) := by
  unfold enterFrameReady
  split_ifs
  · exact (dispatch_updates _).keeps hupdate hs
  · unfold externalCallback
    split
    · exact hs
    · exact callbackWords_keeps hreset hupdate _ (hpop _ _ hs)

end Sys2Proof.Machine
end

section
/-! What a micro-step does to the machine, said once (42_rtu_engine.md, 43_ascii_engine.md): one update of the
block out of `RuleUpdate`, or the entry into FRAME_READY, with the calls that were made. The proofs of O24,
O26, O55, O56 and O60 follow these updates instead of the rules. -/

namespace Sys2Proof.Machine

/-! ### The calls of a rule -/

/-- A capability call of a rule: everything but its record is as `SameBlock` says. -/
theorem SameBlock.called {bad : Prop} {s t : State} {c : Call} (h : SameBlock s t) (hs : Drains s t)
    (hcalls : t.env.calls = s.env.calls ++ [c]) (hc : c.OutOfRange ↔ bad) : Called bad s t :=
  ⟨h.blk, h.cfg, h.resetCfg, h.polling, h.callback, .one hcalls hc, hs⟩

theorem ticks_streams (s : State) : Drains s (ticks s).2 := by
  unfold ticks
  split <;> exact ⟨Nat.le_refl _, id⟩

/-- The receive stream gives nothing back; an `ERR` or bytes are consumed from it, unless it never pauses. -/
theorem rxAnswer_streams {n : Nat} {s t : State} {a : RxAnswer} (h : rxAnswer n s = (a, t)) :
    Drains s t ∧ (s.env.rxEndless = none → a ≠ .bytes [] → t.env.pending < s.env.pending) := by
  unfold rxAnswer at h
  split at h
  case h_1 hs => cases h; refine ⟨⟨?_, id⟩, fun _ _ => ?_⟩ <;> simp [Env.pending, hs]
  case h_2 hs =>
    split at h
    case isTrue he => cases h; refine ⟨⟨?_, id⟩, fun _ _ => ?_⟩ <;> simp [Env.pending, he]
    case isFalse =>
      split at h <;> cases h
      case h_1 hq hk => exact ⟨⟨Nat.le_refl _, by simp [hk]⟩, by simp [hk]⟩
      case h_2 =>
        refine ⟨⟨by simp [Env.pending], id⟩, fun _ ha => ?_⟩
        have hn : n ≠ 0 := fun h => ha (by rw [h]; rfl)
        have hq : s.env.rxQueue.length ≠ 0 := fun h => ha (by rw [List.length_eq_zero_iff.1 h, List.take_nil])
        simp only [Env.pending, State.setEnv_env, List.length_drop]
        omega

theorem write_streams {bs : List Byte} {s t : State} {r : WriteResult} (h : write bs s = (r, t)) :
    Drains s t ∧ (r ≠ .accepted bs.length → t.env.pending < s.env.pending) := by
  unfold write at h
  split at h
  case h_1 hs => cases h; refine ⟨⟨?_, id⟩, fun _ => ?_⟩ <;> simp [Env.pending, State.logCall, hs]
  case h_2 =>
    split at h <;> cases h
    case isTrue he => refine ⟨⟨?_, id⟩, fun _ => ?_⟩ <;> simp [Env.pending, State.logCall, he]
    case isFalse => exact ⟨⟨Nat.le_refl _, id⟩, fun h => absurd rfl h⟩

theorem writeComplete_streams {s t : State} {b : Bool} (h : writeComplete s = (b, t)) : Drains s t := by
  unfold writeComplete at h
  split at h <;> cases h <;> exact ⟨Nat.le_refl _, id⟩

theorem ticks_sameInstance (s : State) : SameInstance s (ticks s).2 :=
  (ticks_same s).called (ticks_streams s) (ticks_calls s) (by simp [Call.OutOfRange])

theorem sampled_sameInstance (s : State) : SameInstance s s.sampled := ticks_sameInstance s

theorem rxAnswer_calls {n : Nat} {s t : State} {a : RxAnswer} (h : rxAnswer n s = (a, t)) :
    t.env.calls = s.env.calls := by
  unfold rxAnswer at h
  split at h
  · cases h; rfl
  · split at h
    · cases h; rfl
    · split at h <;> cases h <;> rfl

theorem read1_called {s t : State} {r : ReadResult} (h : read1 s = (r, t)) :
    Called (r = .outOfRange) s t := by
  have hsame := read1_same h
  rcases ha : rxAnswer 1 s with ⟨a, u⟩
  rw [read1, ha] at h
  cases h
  obtain ⟨hpending, hendless⟩ := (rxAnswer_streams ha).1
  refine hsame.called ⟨hpending, hendless⟩ (congrArg (· ++ [_]) (rxAnswer_calls ha)) ?_
  rcases a with _ | ⟨_ | ⟨b, _ | ⟨b', bs⟩⟩⟩ <;> simp [Call.OutOfRange]

theorem discard_called {s t : State} {r : DiscardResult} (h : Machine.discard s = (r, t)) :
    Called (r = .outOfRange) s t := by
  have hsame := discard_same h
  rcases ha : rxAnswer s.cfg.discardMax s with ⟨a, u⟩
  rw [Machine.discard, ha] at h
  cases h
  obtain ⟨hpending, hendless⟩ := (rxAnswer_streams ha).1
  refine hsame.called ⟨hpending, hendless⟩ (congrArg (· ++ [_]) (rxAnswer_calls ha)) ?_
  cases a with
  | err => simp [Call.OutOfRange]
  | bytes bs => by_cases hle : bs.length ≤ s.cfg.discardMax <;> simp [Call.OutOfRange, hle, Nat.lt_of_not_le]

theorem write_called {bs : List Byte} {s t : State} {r : WriteResult} (h : write bs s = (r, t)) :
    Called (r = .outOfRange) s t := by
  have hsame := write_same h
  have hstreams := (write_streams h).1
  cases hscript : s.env.wrScript with
  | nil =>
    cases herr : s.env.wrErr <;> simp [write, hscript, herr] at h <;> obtain ⟨rfl, rfl⟩ := h <;>
      exact hsame.called hstreams rfl (by simp [Call.OutOfRange])
  | cons a rest =>
    simp only [write, hscript, Prod.mk.injEq] at h
    obtain ⟨rfl, rfl⟩ := h
    refine hsame.called hstreams rfl ?_
    cases a with
    | err => simp [Call.OutOfRange]
    | accepted k => by_cases hle : k ≤ bs.length <;> simp [Call.OutOfRange, hle, Nat.lt_of_not_le]

theorem sameInstance_txEnable (s : State) (level : Bool) : SameInstance s (s.logCall (.txEnable level)) :=
  ⟨rfl, rfl, rfl, rfl, rfl, .one rfl (by simp [Call.OutOfRange]), Nat.le_refl _, id⟩

theorem writeComplete_sameInstance {s t : State} {b : Bool} (h : writeComplete s = (b, t)) :
    SameInstance s t := by
  have hsame := writeComplete_same h
  have hstreams := writeComplete_streams h
  unfold writeComplete at h
  split at h <;> cases h <;> exact hsame.called hstreams rfl (by simp [Call.OutOfRange])

/-! ### The updates -/

/-- What a rule writes to the block `b`, at clock sample `now`. -/
inductive RuleUpdate (c : Config) (now : Nat) (b : Block) : Block → Prop
  /-- nothing -/
  | same : RuleUpdate c now b b
  /-- a reception, a wait or a hold ends, or a wait begins anew: a state that neither receives nor transmits -/
  | rest (x : St) (n : Nat) (hb : b.st.txActive = false) (he : b.st ≠ .exception)
      (hrx : x.rxActive = false) (htx : x.txActive = false) (hmode : x.inMode c.mode = true)
      (hn : n = now ∨ n = b.tRef) : RuleUpdate c now b { b with st := x, tRef := n }
  /-- R260 -/
  | gap (hst : b.st = .receive) : RuleUpdate c now b { b with gap := true }
  /-- R254 -/
  | address (a : Byte) (hm : c.mode = .rtu) (hst : b.st = .idle) :
      RuleUpdate c now b { b with
        faddr := a, crc := crcByte 0xFFFF#16 a, rxN := 0, gap := false, tRef := now, st := .receive }
  /-- R256 -/
  | byte (v : Byte) (hst : b.st = .receive) (hroom : b.rxN < c.bufferMax) :
      RuleUpdate c now b { b with
        buf := Memory.write b.buf b.rxN v, rxN := b.rxN + 1, crc := crcByte b.crc v, tRef := now }
  /-- R304 -/
  | colon (hm : c.mode = .ascii) (hb : b.st.txActive = false) (he : b.st ≠ .exception) :
      RuleUpdate c now b { b with lrc := 0#8, rxN := 0, tRef := now, st := .rxAddrHi }
  /-- R305 -/
  | addrHi (d : BitVec 4) (hm : c.mode = .ascii) (hst : b.st = .rxAddrHi) :
      RuleUpdate c now b { b with nib := d, tRef := now, st := .rxAddrLo }
  /-- R306 -/
  | addrLo (a : Byte) (hm : c.mode = .ascii) (hst : b.st = .rxAddrLo) :
      RuleUpdate c now b { b with faddr := a, lrc := b.lrc + a, tRef := now, st := .rxDataHi }
  /-- R308 -/
  | dataHi (d : BitVec 4) (hm : c.mode = .ascii) (hst : b.st = .rxDataHi) :
      RuleUpdate c now b { b with nib := d, tRef := now, st := .rxDataLo }
  /-- R310 -/
  | dataLo (v : Byte) (hm : c.mode = .ascii) (hst : b.st = .rxDataLo) (hroom : b.rxN < c.bufferMax) :
      RuleUpdate c now b { b with
        buf := Memory.write b.buf b.rxN v, rxN := b.rxN + 1, lrc := b.lrc + v, tRef := now
        st := .rxDataHi }
  /-- R309 -/
  | cr (hm : c.mode = .ascii) (hst : b.st = .rxDataHi) :
      RuleUpdate c now b { b with st := .rxLf, tRef := now }
  /-- R262, R266, R316, R322: the driver is released -/
  | release (x : St) (hb : b.st.txActive = true) (hrx : x.rxActive = false) (htx : x.txActive = false)
      (hmode : x.inMode c.mode = true) : RuleUpdate c now b { b with txen := false, st := x, tRef := now }
  /-- R402 -/
  | fatal (hb : b.st.txActive = true) : RuleUpdate c now b { b with st := .exception }
  /-- R263 to R265, R317 to R321: a phase goes on, or passes to the next -/
  | transmit (crc : U16) (lrc : Byte) (pos : Nat) (x : St) (hb : b.st.txActive = true)
      (hx : x.txActive = true) (hmode : x.inMode c.mode = true)
      (hpos : b.txPos ≤ txLimit c.mode b.st b.len → pos ≤ txLimit c.mode x b.len) :
      RuleUpdate c now b { b with crc := crc, lrc := lrc, txPos := pos, st := x }

/-- What a rule does: an update of the block, and calls of which one is out of range exactly when the
answer is a refusal (R91), where the state is one of the mode. -/
structure RuleEffect (now : Nat) (s : State) (r : StepAnswer × State) : Prop where
  blk : RuleUpdate s.cfg now s.blk r.2.blk
  cfg : r.2.cfg = s.cfg
  resetCfg : r.2.resetCfg = s.resetCfg
  polling : r.2.polling = s.polling
  callback : r.2.env.callback = s.env.callback
  calls : ∃ bad, CallsMade bad s r.2
    ∧ (s.blk.st.inMode s.cfg.mode = true → (bad ↔ r.1 = .refused))

/-- A rule that ends in the state a call leaves. -/
theorem Called.same {bad : Prop} {now : Nat} {s t : State} {a : StepAnswer} (h : Called bad s t)
    (ha : bad ↔ a = .refused) : RuleEffect now s (a, t) :=
  ⟨by rw [h.blk]; exact .same, h.cfg, h.resetCfg, h.polling, h.callback, bad, h.calls, fun _ => ha⟩

/-- A rule that ends in an update of the block a call left alone. -/
theorem Called.effect {bad : Prop} {now : Nat} {s t : State} {b : Block} {a : StepAnswer}
    (h : Called bad s t) (ha : bad ↔ a = .refused) (hb : RuleUpdate t.cfg now t.blk b) :
    RuleEffect now s (a, t.setBlk b) :=
  ⟨by rw [h.cfg, h.blk] at hb; exact hb, h.cfg, h.resetCfg, h.polling, h.callback, bad, h.calls,
    fun _ => ha⟩

/-- A rule that ends a reception, a wait or a hold. -/
theorem Called.rest {bad : Prop} {now : Nat} {s t : State} {a : StepAnswer} (h : Called bad s t)
    (ha : bad ↔ a = .refused) (x : St) (n : Nat) (hb : s.blk.st.txActive = false ∧ s.blk.st ≠ .exception)
    (hx : x.rxActive = false ∧ x.txActive = false) (hmode : x.inMode s.cfg.mode = true)
    (hn : n = now ∨ n = t.blk.tRef) :
    RuleEffect now s (a, t.setBlk { t.blk with st := x, tRef := n }) := by
  rw [← h.blk] at hb
  rw [← h.cfg] at hmode
  exact h.effect ha (.rest x n hb.1 hb.2 hx.1 hx.2 hmode hn)

theorem idleAfter_ne_refused (k : Nat) : idleAfter k ≠ .refused := by
  unfold idleAfter; split_ifs <;> simp

/-! ### The states of the application and the waits -/

section
variable (now : Nat) {s : State}

theorem stepHeld_effect (hst : s.blk.st = .frameReady ∨ s.blk.st = .queue) :
    RuleEffect now s (stepHeld s) := by
  have hb : s.blk.st.txActive = false ∧ s.blk.st ≠ .exception := by
    rcases hst with hst | hst <;> simp [hst, St.txActive]
  rcases hd : Machine.discard s with ⟨r, t⟩
  have hc := discard_called hd
  cases r with
  | outOfRange => simpa [stepHeld, hd] using hc.same (by simp)
  | err =>
    rw [stepHeld_of_err hd]
    exact hc.rest (by simp) .collision _ hb ⟨rfl, rfl⟩ rfl (.inr rfl)
  | count k =>
    rcases k.eq_zero_or_pos with rfl | hk
    · rw [stepHeld_of_silence hd]; exact hc.same (by simp)
    · rw [stepHeld_of_bytes hk hd]
      exact hc.rest (by simp) .collision _ hb ⟨rfl, rfl⟩ rfl (.inr rfl)

theorem stepCollision_effect : RuleEffect now s (stepCollision s) := by
  rcases hd : Machine.discard s with ⟨r, t⟩
  have hc := discard_called hd
  cases r with
  | outOfRange => simpa [stepCollision, hd] using hc.same (by simp)
  | err => rw [stepCollision_of_err hd]; exact hc.same (by simp)
  | count k =>
    rcases k.eq_zero_or_pos with rfl | hk
    · rw [stepCollision_of_silence hd]; exact hc.same (by simp)
    · rw [stepCollision_of_bytes hk hd]; exact hc.same (by simp)

/-- The waits of DUMP and TX_GUARD. -/
theorem stepSilence_effect (threshold : Nat) (hst : s.blk.st = .dump ∨ s.blk.st = .txGuard)
    (hmode : s.blk.st.inMode s.cfg.mode = true) : RuleEffect now s (stepSilence threshold now s) := by
  have hrx : s.blk.st.rxActive = false := by rcases hst with hst | hst <;> rw [hst] <;> rfl
  have htx : s.blk.st.txActive = false := by rcases hst with hst | hst <;> rw [hst] <;> rfl
  have he : s.blk.st ≠ .exception := by rcases hst with hst | hst <;> simp [hst]
  rcases hd : Machine.discard s with ⟨r, t⟩
  have hc := discard_called hd
  have hagain (h : r ≠ .outOfRange) :
      RuleEffect now s (.again, t.setBlk { t.blk with tRef := now }) := by
    have := hc.rest (a := .again) (by simpa using h) s.blk.st now ⟨htx, he⟩ ⟨hrx, htx⟩ hmode (.inl rfl)
    rwa [← hc.blk] at this
  cases r with
  | outOfRange => simpa [stepSilence, hd] using hc.same (by simp)
  | err => rw [stepSilence_of_err threshold now hd]; exact hagain (by simp)
  | count k =>
    rcases k.eq_zero_or_pos with rfl | hk
    · rcases Nat.lt_or_ge (elapsed t.cfg t.blk.tRef now) threshold with hlt | hge
      · rw [stepSilence_of_early threshold now hd hlt]; exact hc.same (by simp)
      · rw [stepSilence_of_reached threshold now hd hge]
        exact hc.rest (by simp) .idle _ ⟨htx, he⟩ ⟨rfl, rfl⟩ rfl (.inr rfl)
    · rw [stepSilence_of_bytes threshold now hk hd]; exact hagain (by simp)

end

/-! ### Reception -/

/-- What a micro-step's rule does: an update of the block, or the entry into FRAME_READY at the end of a
reception. -/
inductive StepEffect (now : Nat) (s : State) : StepAnswer × State → Prop
  | rule {r : StepAnswer × State} (h : RuleEffect now s r) : StepEffect now s r
  | frame {u : State} (h : SameInstance s u) (hst : s.blk.st = .receive ∨ s.blk.st = .rxLf) (n : Nat)
      (hn : n ≤ s.blk.rxN) : StepEffect now s (.again, enterFrameReady (u.setLen n))

section
variable (now : Nat) {s : State}

theorem rtuIdle_effect (hm : s.cfg.mode = .rtu) (hst : s.blk.st = .idle) :
    RuleEffect now s (rtuIdle now s) := by
  have hb : s.blk.st.txActive = false ∧ s.blk.st ≠ .exception := by simp [hst, St.txActive]
  have hdump : St.dump.inMode s.cfg.mode = true := decide_eq_true hm
  rcases hr : read1 s with ⟨r, t⟩
  have hc := read1_called hr
  cases r with
  | outOfRange => simpa [rtuIdle, hr] using hc.same (by simp)
  | nothing => rw [rtuIdle_of_nothing now hr]; exact hc.same (by simp)
  | err =>
    rw [rtuIdle_of_err now hr]
    exact hc.rest (by simp) .dump _ hb ⟨rfl, rfl⟩ hdump (.inl rfl)
  | byte a =>
    by_cases ha : accept t.blk.station a = true
    · rw [rtuIdle_of_accepted now hr ha]
      exact hc.effect (by simp) (.address a (hc.cfg ▸ hm) (hc.blk ▸ hst))
    · rw [rtuIdle_of_rejected now hr ha]
      exact hc.rest (by simp) .dump _ hb ⟨rfl, rfl⟩ hdump (.inl rfl)

theorem rtuReceive_effect (hm : s.cfg.mode = .rtu) (hst : s.blk.st = .receive) :
    StepEffect now s (rtuReceive now s) := by
  have hb : s.blk.st.txActive = false ∧ s.blk.st ≠ .exception := by simp [hst, St.txActive]
  have hdump : St.dump.inMode s.cfg.mode = true := decide_eq_true hm
  rcases hr : read1 s with ⟨r, t⟩
  have hc := read1_called hr
  cases r with
  | outOfRange => simpa [rtuReceive, hr] using StepEffect.rule (hc.same (by simp))
  | err =>
    rw [rtuReceive_of_err now hr]
    exact .rule (hc.rest (by simp) .dump _ hb ⟨rfl, rfl⟩ hdump (.inl rfl))
  | byte b =>
    by_cases hstore : t.blk.gap = false ∧ t.blk.rxN < t.cfg.bufferMax
    · rw [rtuReceive_of_stored now hr hstore.1 hstore.2]
      exact .rule (hc.effect (by simp) (.byte b (hc.blk ▸ hst) hstore.2))
    · rw [rtuReceive_of_discarded now hr (by simpa [Classical.or_iff_not_imp_left] using hstore)]
      exact .rule (hc.rest (by simp) .dump _ hb ⟨rfl, rfl⟩ hdump (.inl rfl))
  | nothing =>
    rcases Nat.lt_or_ge (elapsed t.cfg t.blk.tRef now) t.blk.t35 with h35 | h35
    · rcases Nat.lt_or_ge (elapsed t.cfg t.blk.tRef now) t.blk.t15 with h15 | h15
      · rw [rtuReceive_of_before_t15 hr h35 h15]; exact .rule (hc.same (by simp))
      · rw [rtuReceive_of_gap hr h35 h15]
        exact .rule (hc.effect (by simp) (.gap (hc.blk ▸ hst)))
    · rw [rtuReceive_of_t35 hr h35]
      by_cases hvalid : 2 ≤ t.blk.rxN ∧ t.blk.crc = 0#16
      · rw [rtuEndOfFrame_of_valid hvalid.1 hvalid.2]
        exact .frame (hc.congr (by simp)) (.inl hst) _ (hc.blk ▸ Nat.sub_le _ _)
      · rw [show rtuEndOfFrame t = _ from if_neg hvalid]
        exact .rule (hc.rest (by simp) .idle _ hb ⟨rfl, rfl⟩ rfl (.inr rfl))

theorem asciiIdle_effect (hm : s.cfg.mode = .ascii) (hst : s.blk.st = .idle) :
    RuleEffect now s (asciiIdle now s) := by
  have hb : s.blk.st.txActive = false ∧ s.blk.st ≠ .exception := by simp [hst, St.txActive]
  rcases hr : read1 s with ⟨r, t⟩
  have hc := read1_called hr
  cases r with
  | outOfRange => simpa [asciiIdle, hr] using hc.same (by simp)
  | nothing => rw [asciiIdle_of_nothing now hr]; exact hc.same (by simp)
  | err =>
    rw [asciiIdle_of_err now hr]
    have := hc.rest (now := now) (a := .again) (by simp) .idle now hb ⟨rfl, rfl⟩ rfl (.inl rfl)
    rwa [← hst, ← hc.blk] at this
  | byte c =>
    by_cases hcolon : c = 0x3A#8
    · subst hcolon
      rw [asciiIdle_of_colon now hr]
      rw [← hc.blk] at hb
      exact hc.effect (by simp) (.colon (hc.cfg ▸ hm) hb.1 hb.2)
    · rw [asciiIdle_of_other now hcolon hr]; exact hc.same (by simp)

section
variable {t : State} (hc : SameInstance s t) (c : Byte)
include hc

theorem asciiAddrHi_effect (hm : s.cfg.mode = .ascii) (hst : s.blk.st = .rxAddrHi) :
    RuleEffect now s (.again, asciiAddrHi now c t) := by
  cases hd : hexval c with
  | some d =>
    rw [asciiAddrHi_of_digit now hd]
    exact hc.effect (by simp) (.addrHi d (hc.cfg ▸ hm) (hc.blk ▸ hst))
  | none =>
    rw [asciiAddrHi_of_illegal now hd]
    exact hc.rest (by simp) .idle _ (by simp [hst, St.txActive]) ⟨rfl, rfl⟩ rfl (.inl rfl)

theorem asciiAddrLo_effect (hm : s.cfg.mode = .ascii) (hst : s.blk.st = .rxAddrLo) :
    RuleEffect now s (.again, asciiAddrLo now c t) := by
  have habort : RuleEffect now s (.again, t.gotoAt .idle now) :=
    hc.rest (by simp) .idle _ (by simp [hst, St.txActive]) ⟨rfl, rfl⟩ rfl (.inl rfl)
  cases hd : hexval c with
  | some d =>
    by_cases ha : accept t.blk.station (nibbles t.blk.nib d) = true
    · rw [asciiAddrLo_of_accepted now hd ha]
      exact hc.effect (by simp) (.addrLo _ (hc.cfg ▸ hm) (hc.blk ▸ hst))
    · rw [asciiAddrLo_of_rejected now hd ha]; exact habort
  | none => rw [asciiAddrLo_of_illegal now hd]; exact habort

theorem asciiDataHi_effect (hm : s.cfg.mode = .ascii) (hst : s.blk.st = .rxDataHi) :
    RuleEffect now s (.again, asciiDataHi now c t) := by
  cases hd : hexval c with
  | some d =>
    rw [asciiDataHi_of_digit now hd]
    exact hc.effect (by simp) (.dataHi d (hc.cfg ▸ hm) (hc.blk ▸ hst))
  | none =>
    by_cases hcr : c = 0x0D#8
    · subst hcr
      rw [asciiDataHi_cr]
      exact hc.effect (by simp) (.cr (hc.cfg ▸ hm) (hc.blk ▸ hst))
    · rw [asciiDataHi_of_illegal now hd hcr]
      exact hc.rest (by simp) .idle _ (by simp [hst, St.txActive]) ⟨rfl, rfl⟩ rfl (.inl rfl)

theorem asciiDataLo_effect (hm : s.cfg.mode = .ascii) (hst : s.blk.st = .rxDataLo) :
    RuleEffect now s (.again, asciiDataLo now c t) := by
  have habort : RuleEffect now s (.again, t.gotoAt .idle now) :=
    hc.rest (by simp) .idle _ (by simp [hst, St.txActive]) ⟨rfl, rfl⟩ rfl (.inl rfl)
  cases hd : hexval c with
  | some d =>
    rcases Nat.lt_or_ge t.blk.rxN t.cfg.bufferMax with hroom | hfull
    · rw [asciiDataLo_of_stored now hd hroom]
      exact hc.effect (by simp) (.dataLo _ (hc.cfg ▸ hm) (hc.blk ▸ hst) hroom)
    · rw [asciiDataLo_of_full now hd hfull]; exact habort
  | none => rw [asciiDataLo_of_illegal now hd]; exact habort

theorem asciiLf_effect (hst : s.blk.st = .rxLf) : StepEffect now s (.again, asciiLf now c t) := by
  have hb : s.blk.st.txActive = false ∧ s.blk.st ≠ .exception := by simp [hst, St.txActive]
  by_cases hlf : c = 0x0A#8
  · subst hlf
    rw [asciiLf_lf]
    by_cases hvalid : 1 ≤ t.blk.rxN ∧ t.blk.lrc = 0#8
    · rw [asciiEndOfFrame_of_valid hvalid.1 hvalid.2]
      exact .frame hc (.inr hst) _ (hc.blk ▸ Nat.sub_le _ _)
    · rw [show asciiEndOfFrame t = _ from if_neg hvalid]
      exact .rule (hc.rest (by simp) .idle _ hb ⟨rfl, rfl⟩ rfl (.inr rfl))
  · rw [asciiLf_of_illegal now hlf]
    exact .rule (hc.rest (by simp) .idle _ hb ⟨rfl, rfl⟩ rfl (.inl rfl))

end

/-- A reception state with its rule for a character that is not `:`. -/
theorem asciiRx_effect {on : Byte → State → State} (hm : s.cfg.mode = .ascii)
    (hrx : s.blk.st.rxActive = true)
    (hon : ∀ c t, SameInstance s t → StepEffect now s (.again, on c t)) :
    StepEffect now s (asciiRx now on s) := by
  have hb : s.blk.st.txActive = false ∧ s.blk.st ≠ .exception := by
    cases h : s.blk.st <;> simp_all [St.txActive, St.rxActive]
  rcases hr : read1 s with ⟨r, t⟩
  have hc := read1_called hr
  cases r with
  | outOfRange => simpa [asciiRx, hr] using StepEffect.rule (hc.same (by simp))
  | err =>
    rw [asciiRx_of_err now on hr]
    exact .rule (hc.rest (by simp) .idle _ hb ⟨rfl, rfl⟩ rfl (.inl rfl))
  | byte c =>
    by_cases hcolon : c = 0x3A#8
    · subst hcolon
      rw [asciiRx_of_colon now on hr]
      rw [← hc.blk] at hb
      exact .rule (hc.effect (by simp) (.colon (hc.cfg ▸ hm) hb.1 hb.2))
    · rw [asciiRx_of_other now on hcolon hr]; exact hon c t (hc.congr (by simp))
  | nothing =>
    rcases Nat.lt_or_ge (elapsed t.cfg t.blk.tRef now) t.blk.t1s with hlt | hge
    · rw [asciiRx_of_early now on hr hlt]; exact .rule (hc.same (by simp))
    · rw [asciiRx_of_timeout now on hr hge]
      exact .rule (hc.rest (by simp) .idle _ hb ⟨rfl, rfl⟩ rfl (.inr rfl))

end

/-! ### Transmission: a phase offers bytes to the transmit stream -/

/-- What every phase of a transmission does with the bytes it still has to write, `seq` (R263 to R265,
R317): `after w` is its update where `Write` accepts `w` bytes, at least one. -/
def offer (seq : List Byte) (after : Nat → Block → Block) (k : Nat) (s : State) : StepAnswer × State :=
  match write seq s with
  | (.outOfRange, t) => (.refused, t)
  | (.err, t) => (.done 0, raiseFatal .writeError t)
  | (.accepted w, t) => if w = 0 then (idleAfter k, t) else (.again, t.setBlk (after w t.blk))

section
variable {seq : List Byte} (after : Nat → Block → Block) (k : Nat) {s t : State}

theorem offer_of_outOfRange (h : write seq s = (.outOfRange, t)) :
    offer seq after k s = (.refused, t) := by
  rw [offer, h]

theorem offer_of_err (h : write seq s = (.err, t)) :
    offer seq after k s = (.done 0, t.setBlk { t.blk with st := .exception }) := by
  rw [offer, h]; rfl

theorem offer_of_nothing (h : write seq s = (.accepted 0, t)) :
    offer seq after k s = (idleAfter k, t) := by
  simp [offer, h]

theorem offer_of_accepted {w : Nat} (hw : 0 < w) (h : write seq s = (.accepted w, t)) :
    offer seq after k s = (.again, t.setBlk (after w t.blk)) := by
  simp [offer, h, hw.ne']

end

theorem rtuTxAddress_eq (k : Nat) (s : State) :
    rtuTxAddress k s = offer [s.blk.faddr]
      (fun _ b => { b with crc := crcByte b.crc b.faddr, txPos := 0, st := .txPdu }) k s := rfl

theorem rtuTxPdu_of_end (k : Nat) {s : State} (h : s.blk.txPos = s.blk.len) :
    rtuTxPdu k s = (.again, s.setBlk { s.blk with txPos := 0, st := .txChecksum }) := if_pos h

theorem rtuTxPdu_of_rest (k : Nat) {s : State} (h : s.blk.txPos ≠ s.blk.len) :
    rtuTxPdu k s = offer (s.cells s.blk.txPos s.blk.len)
      (fun w b => { b with
        crc := crcUpdate b.crc ((s.cells s.blk.txPos s.blk.len).take w), txPos := b.txPos + w })
      k s.draw := if_neg h

theorem rtuTxChecksum_of_end (k : Nat) {s : State} (h : s.blk.txPos = 2) :
    rtuTxChecksum k s = (.again, s.setBlk { s.blk with st := .txDrain }) := if_pos h

theorem rtuTxChecksum_of_rest (k : Nat) {s : State} (h : s.blk.txPos ≠ 2) :
    rtuTxChecksum k s = offer ((crcBytes s.blk.crc).drop s.blk.txPos)
      (fun w b => { b with txPos := b.txPos + w }) k s := if_neg h

theorem phaseWrite_of_end {seq : List Byte} (next : St) (exit : Block → Block)
    (accepted : Nat → Block → Block) (k : Nat) {s : State} (h : s.blk.txPos = seq.length) :
    phaseWrite seq next exit accepted k s
      = (.again, s.setBlk { exit s.blk with txPos := 0, st := next }) := if_pos h

theorem phaseWrite_of_rest {seq : List Byte} (next : St) (exit : Block → Block)
    (accepted : Nat → Block → Block) (k : Nat) {s : State} (h : s.blk.txPos ≠ seq.length) :
    phaseWrite seq next exit accepted k s = offer (seq.drop s.blk.txPos)
      (fun w b => { accepted w b with txPos := b.txPos + w }) k s := if_neg h

theorem hexAll_length (bs : List Byte) : (hexAll bs).length = 2 * bs.length := by
  induction bs with
  | nil => rfl
  | cons b bs ih => simp [hexAll, hex2] at ih ⊢; omega

section
variable (now : Nat) {s t : State} (hact : s.blk.st.txActive = true) (hc : SameInstance s t)
include hact hc

/-- The phase's update is asked for no more bytes than were offered. -/
theorem offer_effect {seq : List Byte} {after : Nat → Block → Block} (k : Nat)
    (hafter : ∀ w, w ≤ seq.length → RuleUpdate s.cfg now s.blk (after w s.blk)) :
    RuleEffect now s (offer seq after k t) := by
  rcases hw : write seq t with ⟨r, u⟩
  have hu := hc.trans (write_called hw)
  cases r with
  | outOfRange => rw [offer_of_outOfRange after k hw]; exact hu.same (by simp)
  | err =>
    rw [offer_of_err after k hw]
    exact hu.effect (by simp) (.fatal (hu.blk ▸ hact))
  | accepted w =>
    rcases w.eq_zero_or_pos with rfl | hpos
    · rw [offer_of_nothing after k hw]
      exact hu.same (by simp [idleAfter_ne_refused])
    · rw [offer_of_accepted after k hpos hw]
      refine hu.effect (by simp) ?_
      rw [hu.cfg, hu.blk]
      exact hafter w (write_accepted_wire hw).1

theorem txDrain_effect (k : Nat) {x : St} (hx : x.rxActive = false ∧ x.txActive = false)
    (hmode : x.inMode s.cfg.mode = true) : RuleEffect now s (txDrain x now k t) := by
  rcases hw : writeComplete t with ⟨_ | _, u⟩
  · have hu := hc.trans (writeComplete_sameInstance hw)
    rw [txDrain_of_pending x now k hw]
    exact hu.same (by simp [idleAfter_ne_refused])
  · have hu : SameInstance s (u.logCall (.txEnable false)) :=
      (hc.trans (writeComplete_sameInstance hw)).trans (sameInstance_txEnable u false)
    rw [txDrain_of_complete x now k hw]
    exact hu.effect (by simp) (.release x (hu.blk ▸ hact) hx.1 hx.2 (hu.cfg ▸ hmode))

end

/-- The echo discard and its abort, then the phase. -/
theorem stepTransmit_effect (now : Nat) {s : State} {phase : Nat → State → StepAnswer × State} {x : St}
    (hact : s.blk.st.txActive = true) (hx : x.rxActive = false ∧ x.txActive = false)
    (hmode : x.inMode s.cfg.mode = true)
    (hphase : ∀ k t, SameInstance s t → RuleEffect now s (phase k t)) :
    RuleEffect now s (stepTransmit x now phase s) := by
  rcases hd : Machine.discard s with ⟨r, t⟩
  have hc := discard_called hd
  cases r with
  | outOfRange => simpa [stepTransmit, hd] using hc.same (by simp)
  | err =>
    have hl : SameInstance s (t.logCall (.txEnable false)) :=
      (hc.congr (by simp)).trans (sameInstance_txEnable t false)
    rw [stepTransmit_of_err x now phase hd]
    exact hl.effect (by simp) (.release x (hc.blk ▸ hact) hx.1 hx.2 (hc.cfg ▸ hmode))
  | count k =>
    rw [stepTransmit_of_count x now phase hd]
    exact hphase k t (hc.congr (by simp))

section
variable (now : Nat) {s t : State} (hc : SameInstance s t) (k : Nat)
include hc

theorem rtuTxAddress_effect (hst : s.blk.st = .txAddress) : RuleEffect now s (rtuTxAddress k t) := by
  have hact : s.blk.st.txActive = true := by rw [hst]; rfl
  rw [rtuTxAddress_eq]
  exact offer_effect now hact hc k fun w _ =>
    .transmit _ s.blk.lrc 0 .txPdu hact rfl rfl fun _ => Nat.zero_le _

theorem rtuTxPdu_effect (hm : s.cfg.mode = .rtu) (hst : s.blk.st = .txPdu) :
    RuleEffect now s (rtuTxPdu k t) := by
  have hact : s.blk.st.txActive = true := by rw [hst]; rfl
  by_cases hpos : t.blk.txPos = t.blk.len
  · rw [rtuTxPdu_of_end k hpos]
    exact hc.effect (by simp)
      (.transmit _ t.blk.lrc 0 .txChecksum (hc.blk ▸ hact) rfl rfl fun _ => Nat.zero_le _)
  · rw [rtuTxPdu_of_rest k hpos]
    refine offer_effect now hact (hc.trans (sameInstance_draw t)) k fun w hw => ?_
    rw [State.cells_length, hc.blk] at hw
    refine .transmit _ s.blk.lrc (s.blk.txPos + w) s.blk.st hact hact (by rw [hst]; rfl) fun hle => ?_
    rw [hst, hm] at hle ⊢
    simp only [txLimit] at hle ⊢
    omega

theorem rtuTxChecksum_effect (hm : s.cfg.mode = .rtu) (hst : s.blk.st = .txChecksum) :
    RuleEffect now s (rtuTxChecksum k t) := by
  have hact : s.blk.st.txActive = true := by rw [hst]; rfl
  by_cases hpos : t.blk.txPos = 2
  · rw [rtuTxChecksum_of_end k hpos]
    refine hc.effect (by simp) (.transmit t.blk.crc t.blk.lrc t.blk.txPos .txDrain (hc.blk ▸ hact) rfl rfl
      fun _ => ?_)
    rw [hpos, hc.cfg, hm]; rfl
  · rw [rtuTxChecksum_of_rest k hpos]
    refine offer_effect now hact hc k fun w hw => ?_
    rw [List.length_drop, hc.blk] at hw
    refine .transmit s.blk.crc s.blk.lrc (s.blk.txPos + w) s.blk.st hact hact (by rw [hst]; rfl) fun hle => ?_
    rw [hst] at hle ⊢
    simp only [txLimit, crcBytes, List.length_cons, List.length_nil] at hw hle ⊢
    omega

/-- A character phase: at its end the next one begins, before it the cursor stays inside it. -/
theorem phaseWrite_effect {seq : List Byte} {next : St} {exit : Block → Block}
    {accepted : Nat → Block → Block} (hm : s.cfg.mode = .ascii) (hact : s.blk.st.txActive = true)
    (hmode : s.blk.st.inMode .ascii = true)
    (hnext : next.txActive = true ∧ next.inMode .ascii = true)
    (hseq : seq.length = txLimit .ascii s.blk.st s.blk.len)
    (hexit : ∃ l, exit s.blk = { s.blk with lrc := l })
    (haccepted : ∀ w, ∃ l, accepted w s.blk = { s.blk with lrc := l }) :
    RuleEffect now s (phaseWrite seq next exit accepted k t) := by
  by_cases hpos : t.blk.txPos = seq.length
  · obtain ⟨l, hl⟩ := hexit
    rw [phaseWrite_of_end next exit accepted k hpos]
    refine hc.effect (by simp) ?_
    rw [hc.cfg, hc.blk, hl]
    exact .transmit s.blk.crc l 0 next hact hnext.1 (hm ▸ hnext.2) fun _ => Nat.zero_le _
  · rw [phaseWrite_of_rest next exit accepted k hpos]
    refine offer_effect now hact hc k fun w hw => ?_
    obtain ⟨l, hl⟩ := haccepted w
    rw [List.length_drop, hc.blk] at hw
    simp only [hl]
    refine .transmit s.blk.crc l (s.blk.txPos + w) s.blk.st hact hact (hm ▸ hmode) fun hle => ?_
    rw [hm] at hle ⊢
    omega

theorem asciiTxStart_effect (hm : s.cfg.mode = .ascii) (hst : s.blk.st = .txStart) :
    RuleEffect now s (asciiTxStart k t) :=
  phaseWrite_effect now hc k hm (by rw [hst]; rfl) (by rw [hst]; rfl) ⟨rfl, rfl⟩ (by rw [hst]; rfl)
    ⟨_, rfl⟩ fun _ => ⟨_, rfl⟩

theorem asciiTxAddress_effect (hm : s.cfg.mode = .ascii) (hst : s.blk.st = .txAddress) :
    RuleEffect now s (asciiTxAddress k t) :=
  phaseWrite_effect now hc k hm (by rw [hst]; rfl) (by rw [hst]; rfl) ⟨rfl, rfl⟩ (by rw [hst]; rfl)
    ⟨_, rfl⟩ fun _ => ⟨_, rfl⟩

theorem asciiTxPdu_effect (hm : s.cfg.mode = .ascii) (hst : s.blk.st = .txPdu) :
    RuleEffect now s (asciiTxPdu k t) := by
  refine phaseWrite_effect now (hc.trans (sameInstance_draw t)) k hm (by rw [hst]; rfl) (by rw [hst]; rfl)
    ⟨rfl, rfl⟩ ?_ ⟨_, rfl⟩ fun _ => ⟨_, rfl⟩
  rw [hexAll_length, State.pdu_length, hc.blk, hst]; rfl

theorem asciiTxChecksum_effect (hm : s.cfg.mode = .ascii) (hst : s.blk.st = .txChecksum) :
    RuleEffect now s (asciiTxChecksum k t) :=
  phaseWrite_effect now hc k hm (by rw [hst]; rfl) (by rw [hst]; rfl) ⟨rfl, rfl⟩ (by rw [hst]; rfl)
    ⟨_, rfl⟩ fun _ => ⟨_, rfl⟩

theorem asciiTxEnd_effect (hm : s.cfg.mode = .ascii) (hst : s.blk.st = .txEnd) :
    RuleEffect now s (asciiTxEnd k t) :=
  phaseWrite_effect now hc k hm (by rw [hst]; rfl) (by rw [hst]; rfl) ⟨rfl, rfl⟩ (by rw [hst]; rfl)
    ⟨_, rfl⟩ fun _ => ⟨_, rfl⟩

end

/-! ### The rule of every state -/

/-- A state that is none of the mode has no rule (log 20). -/
theorem effect_of_not_inMode (now : Nat) {s : State} (h : s.blk.st.inMode s.cfg.mode = false) :
    RuleEffect now s (.refused, s) :=
  ⟨.same, rfl, rfl, rfl, rfl, False, .none rfl, by simp [h]⟩

section
variable (now : Nat) {s : State}

theorem stepRtu_effect (hm : s.cfg.mode = .rtu) (hx : s.blk.st.holder ≠ .application)
    (he : s.blk.st ≠ .exception) : StepEffect now s (stepRtu now s) := by
  have hdump : St.dump.inMode s.cfg.mode = true := decide_eq_true hm
  have htx {phase : Nat → State → StepAnswer × State} (hact : s.blk.st.txActive = true) :
      (∀ k t, SameInstance s t → RuleEffect now s (phase k t)) →
      StepEffect now s (stepTransmit .dump now phase s) :=
    fun hphase => .rule (stepTransmit_effect now hact ⟨rfl, rfl⟩ hdump hphase)
  unfold stepRtu
  cases hst : s.blk.st
  case dump => exact .rule (stepSilence_effect now _ (.inl hst) (by rw [hst]; exact hdump))
  case idle => exact .rule (rtuIdle_effect now hm hst)
  case receive => exact rtuReceive_effect now hm hst
  case txAddress => exact htx (by rw [hst]; rfl) fun k t hc => rtuTxAddress_effect now hc k hst
  case txPdu => exact htx (by rw [hst]; rfl) fun k t hc => rtuTxPdu_effect now hc k hm hst
  case txChecksum => exact htx (by rw [hst]; rfl) fun k t hc => rtuTxChecksum_effect now hc k hm hst
  case txDrain =>
    have hact : s.blk.st.txActive = true := by rw [hst]; rfl
    exact htx hact fun k t hc => txDrain_effect now hact hc k ⟨rfl, rfl⟩ hdump
  case exception => exact absurd hst he
  case frameReady | queue | collision => simp [hst, St.holder] at hx
  all_goals exact .rule (effect_of_not_inMode now (by simp [hst, St.inMode, hm]))

theorem stepAscii_effect (hm : s.cfg.mode = .ascii) (hx : s.blk.st.holder ≠ .application)
    (he : s.blk.st ≠ .exception) : StepEffect now s (stepAscii now s) := by
  have htx {phase : Nat → State → StepAnswer × State} (hact : s.blk.st.txActive = true) :
      (∀ k t, SameInstance s t → RuleEffect now s (phase k t)) →
      StepEffect now s (stepTransmit .idle now phase s) :=
    fun hphase => .rule (stepTransmit_effect now hact ⟨rfl, rfl⟩ rfl hphase)
  have hguard : St.txGuard.inMode s.cfg.mode = true := decide_eq_true hm
  unfold stepAscii
  cases hst : s.blk.st
  case idle => exact .rule (asciiIdle_effect now hm hst)
  case rxAddrHi =>
    exact asciiRx_effect now hm (by rw [hst]; rfl) fun c t hc => .rule (asciiAddrHi_effect now hc c hm hst)
  case rxAddrLo =>
    exact asciiRx_effect now hm (by rw [hst]; rfl) fun c t hc => .rule (asciiAddrLo_effect now hc c hm hst)
  case rxDataHi =>
    exact asciiRx_effect now hm (by rw [hst]; rfl) fun c t hc => .rule (asciiDataHi_effect now hc c hm hst)
  case rxDataLo =>
    exact asciiRx_effect now hm (by rw [hst]; rfl) fun c t hc => .rule (asciiDataLo_effect now hc c hm hst)
  case rxLf => exact asciiRx_effect now hm (by rw [hst]; rfl) fun c t hc => asciiLf_effect now hc c hst
  case txStart => exact htx (by rw [hst]; rfl) fun k t hc => asciiTxStart_effect now hc k hm hst
  case txAddress => exact htx (by rw [hst]; rfl) fun k t hc => asciiTxAddress_effect now hc k hm hst
  case txPdu => exact htx (by rw [hst]; rfl) fun k t hc => asciiTxPdu_effect now hc k hm hst
  case txChecksum => exact htx (by rw [hst]; rfl) fun k t hc => asciiTxChecksum_effect now hc k hm hst
  case txEnd => exact htx (by rw [hst]; rfl) fun k t hc => asciiTxEnd_effect now hc k hm hst
  case txDrain =>
    have hact : s.blk.st.txActive = true := by rw [hst]; rfl
    exact htx hact fun k t hc => txDrain_effect now hact hc k ⟨rfl, rfl⟩ hguard
  case txGuard => exact .rule (stepSilence_effect now _ (.inr hst) (by rw [hst]; exact hguard))
  case exception => exact absurd hst he
  case frameReady | queue | collision => simp [hst, St.holder] at hx
  all_goals exact .rule (effect_of_not_inMode now (by simp [hst, St.inMode, hm]))

theorem stepState_effect (now : Nat) (s : State) : StepEffect now s (stepState now s) := by
  by_cases he : s.blk.st = .exception
  · have h : stepState now s = (.done 0, s) := by rw [stepState, he]
    rw [h]
    exact .rule ((SameInstance.refl s).same (by simp))
  by_cases hx : s.blk.st.holder = .application
  · rcases (St.holder_eq_application_iff _).1 hx with hst | hst | hst
    · rw [stepState_held now (.inl hst)]; exact .rule (stepHeld_effect now (.inl hst))
    · rw [stepState_held now (.inr hst)]; exact .rule (stepHeld_effect now (.inr hst))
    · rw [stepState_collision now hst]; exact .rule (stepCollision_effect now)
  · cases hm : s.cfg.mode with
    | rtu => rw [stepState_rtu now hm hx he]; exact stepRtu_effect now hm hx he
    | ascii => rw [stepState_ascii now hm hx he]; exact stepAscii_effect now hm hx he

end

/-! ### The micro-step -/

/-- A micro-step is refused and abandoned, or is its state's rule and a notification; `u` is the state after
the clock sample. -/
theorem microStep_effect (s : State) :
    ∃ r, StepEffect s.now s.sampled r
      ∧ ((r.1 = .refused ∧ microStep s = (.refused, abandon s r.2))
        ∨ (r.1 ≠ .refused ∧ microStep s = (r.1, statusUpdate r.2))) := by
  refine ⟨stepState s.now s.sampled, stepState_effect s.now s.sampled, ?_⟩
  rw [microStep_eq]
  rcases stepState s.now s.sampled with ⟨_ | d | _, t⟩
  · exact .inr ⟨by simp, rfl⟩
  · exact .inr ⟨by simp, rfl⟩
  · exact .inl ⟨rfl, rfl⟩

end Sys2Proof.Machine
end

section
/-! PROOF of O55 and O14: the invariant of the machine (10_state.md sections 2 to 7). The invariant but for the
status notification, `Sound`, is kept by every update of a rule or a command; the notification (R220) then
makes `Sound` the invariant again. -/

namespace Sys2Proof.Machine

/-- The invariant of the block while a rule or a command is under way: a change of state may still have to
be reported, unless DIAG is off and none ever is. -/
structure Block.Sound (c : Config) (b : Block) : Prop where
  valid : Config.valid c = true
  mode : b.st.inMode c.mode = true
  buffer : b.BufferOk c
  timing : b.TimingOk c
  transmit : b.TransmitOk c
  driver : b.DriverOk
  quiet : c.diag = false → b.stat = (false, false)

/-- The invariant of the machine while a rule or a command is under way. -/
structure State.Sound (s : State) : Prop where
  blk : s.blk.Sound s.cfg
  poll : s.PollOk

theorem State.inv_iff (s : State) : s.Inv ↔ s.Sound ∧ s.blk.StatusOk s.cfg := by
  constructor
  · rintro ⟨hvalid, hmode, hbuf, htime, htx, hdrv, hstat, hpoll⟩
    exact ⟨⟨⟨hvalid, hmode, hbuf, htime, htx, hdrv, fun hd => by rw [hstat, hd]; rfl⟩, hpoll⟩, hstat⟩
  · rintro ⟨⟨⟨hvalid, hmode, hbuf, htime, htx, hdrv, -⟩, hpoll⟩, hstat⟩
    exact ⟨hvalid, hmode, hbuf, htime, htx, hdrv, hstat, hpoll⟩

theorem Called.sound {bad : Prop} {s t : State} (h : Called bad s t) (hs : s.Sound) : t.Sound := by
  obtain ⟨hblk, hpoll⟩ := hs
  refine ⟨by rw [h.blk, h.cfg]; exact hblk, ?_⟩
  rw [State.PollOk, h.blk, h.polling]; exact hpoll

theorem Called.statusOk {bad : Prop} {s t : State} (h : Called bad s t) (hs : s.blk.StatusOk s.cfg) :
    t.blk.StatusOk t.cfg := by
  rw [h.blk, h.cfg]; exact hs

/-- The notification reports what there is to report. -/
theorem State.Sound.inv_statusUpdate {s : State} (hs : s.Sound) : (statusUpdate s).Inv := by
  obtain ⟨⟨hvalid, hmode, hbuf, htime, htx, hdrv, hquiet⟩, hpoll⟩ := hs
  rw [State.inv_iff]
  unfold statusUpdate
  split_ifs with h
  · exact ⟨⟨⟨hvalid, hmode, hbuf, htime, htx, hdrv, by simp [h.1]⟩, hpoll⟩, by simp [Block.StatusOk, h.1]⟩
  · refine ⟨⟨⟨hvalid, hmode, hbuf, htime, htx, hdrv, hquiet⟩, hpoll⟩, ?_⟩
    cases hd : s.cfg.diag with
    | false => simp [Block.StatusOk, hquiet hd, hd]
    | true => simpa [Block.StatusOk, hd, eq_comm] using h

/-! ### What an update writes, by the kind of state it leads to -/

section
variable {c : Config} {b b' : Block} (h : b.Sound c)
include h

/-- To a state that does not transmit, from one that does not and in which nothing has failed. -/
theorem Block.Sound.to_resting (hb : b.st.txActive = false) (he : b.st ≠ .exception)
    (hx : b'.st.txActive = false) (hmode : b'.st.inMode c.mode = true) (hbuf : b'.BufferOk c)
    (href : b'.tRef < c.tickModulus)
    (hrest : (b'.baud, b'.t15, b'.t35, b'.t1s, b'.txen, b'.stat)
      = (b.baud, b.t15, b.t35, b.t1s, b.txen, b.stat)) : b'.Sound c := by
  simp only [Prod.mk.injEq] at hrest
  obtain ⟨hbaud, ht15, ht35, ht1s, htxen, hstat⟩ := hrest
  obtain ⟨hb1, -, hrtu, hascii⟩ := h.timing
  refine ⟨h.valid, hmode, hbuf, ?_, by simp [Block.TransmitOk, hx], ?_, by rw [hstat]; exact h.quiet⟩
  · rw [Block.TimingOk, hbaud, ht15, ht35, ht1s]; exact ⟨hb1, href, hrtu, hascii⟩
  · rw [Block.DriverOk, htxen]; exact ⟨by simp [hx], fun _ _ => h.driver.2 hb he⟩

/-- To a transmit state, the driver on and the cursor in its phase. -/
theorem Block.Sound.to_transmit (hlen : b'.len < c.bufferMax) (hpos : b'.txPos ≤ txLimit c.mode b'.st b'.len)
    (hx : b'.st.txActive = true) (hmode : b'.st.inMode c.mode = true) (htxen : b'.txen = true)
    (hrest : (b'.baud, b'.t15, b'.t35, b'.t1s, b'.tRef, b'.stat, b'.len, b'.rxN, b'.buf)
      = (b.baud, b.t15, b.t35, b.t1s, b.tRef, b.stat, b.len, b.rxN, b.buf)) : b'.Sound c := by
  simp only [Prod.mk.injEq] at hrest
  obtain ⟨hbaud, ht15, ht35, ht1s, href, hstat, hl, hn, hbuf⟩ := hrest
  refine ⟨h.valid, hmode, ?_, ?_, fun _ => ⟨hlen, hpos⟩, ⟨fun _ => htxen, by simp [hx]⟩,
    by rw [hstat]; exact h.quiet⟩
  · rw [Block.BufferOk, hl, hn, hbuf]; exact h.buffer
  · rw [Block.TimingOk, hbaud, ht15, ht35, ht1s, href]; exact h.timing

theorem Block.Sound.to_exception : ({ b with st := .exception } : Block).Sound c :=
  ⟨h.valid, rfl, h.buffer, h.timing, by simp [Block.TransmitOk, St.txActive],
    ⟨by simp [St.txActive], fun _ hne => absurd rfl hne⟩, h.quiet⟩

/-- A byte stored at `S.rx_n`, where there is room. -/
theorem Block.Sound.buffer_write (v : Byte) (hroom : b.rxN < c.bufferMax) (hbuf : b'.buf = Memory.write b.buf b.rxN v)
    (hn : b'.rxN = b.rxN + 1) (hlen : b'.len = b.len) : b'.BufferOk c := by
  obtain ⟨hl, -, hwf, hbelow⟩ := h.buffer
  rw [Block.BufferOk, hbuf, hn, hlen]
  exact ⟨hl, hroom, Memory.wf_write _ _ _ hwf, Memory.below_write _ _ _ _ hbelow hroom⟩

theorem RuleUpdate.sound {now : Nat} (hu : RuleUpdate c now b b') (hnow : now < c.tickModulus) :
    b'.Sound c := by
  have hempty : ∀ b' : Block, b'.len = b.len → b'.rxN = 0 → b'.buf = b.buf → b'.BufferOk c := by
    intro b' hl hn hbuf
    rw [Block.BufferOk, hl, hn, hbuf]
    exact ⟨h.buffer.1, Nat.zero_le _, h.buffer.2.2⟩
  cases hu with
  | same => exact h
  | rest x n hb he hrx htx hmode hn =>
    refine h.to_resting hb he htx hmode h.buffer ?_ rfl
    rcases hn with rfl | rfl
    · exact hnow
    · exact h.timing.2.1
  | gap hst =>
    exact h.to_resting (by simp [hst, St.txActive]) (by simp [hst]) (by simp [hst, St.txActive]) h.mode
      h.buffer h.timing.2.1 rfl
  | address a hm hst =>
    exact h.to_resting (by simp [hst, St.txActive]) (by simp [hst]) rfl (by simp [St.inMode, hm])
      (hempty _ rfl rfl rfl) hnow rfl
  | byte v hst hroom =>
    exact h.to_resting (by simp [hst, St.txActive]) (by simp [hst]) (by simp [hst, St.txActive]) h.mode
      (h.buffer_write v hroom rfl rfl rfl) hnow rfl
  | colon hm hb he =>
    exact h.to_resting hb he rfl (by simp [St.inMode, hm]) (hempty _ rfl rfl rfl) hnow rfl
  | addrHi d hm hst | addrLo d hm hst | dataHi d hm hst =>
    exact h.to_resting (by simp [hst, St.txActive]) (by simp [hst]) rfl (by simp [St.inMode, hm]) h.buffer hnow rfl
  | cr hm hst =>
    exact h.to_resting (by simp [hst, St.txActive]) (by simp [hst]) rfl (by simp [St.inMode, hm]) h.buffer hnow rfl
  | dataLo v hm hst hroom =>
    exact h.to_resting (by simp [hst, St.txActive]) (by simp [hst]) rfl (by simp [St.inMode, hm])
      (h.buffer_write v hroom rfl rfl rfl) hnow rfl
  | release x hb hrx htx hmode =>
    obtain ⟨hb1, -, htime⟩ := h.timing
    exact ⟨h.valid, hmode, h.buffer, ⟨hb1, hnow, htime⟩, by simp [Block.TransmitOk, htx],
      ⟨by simp [htx], fun _ _ => rfl⟩, h.quiet⟩
  | fatal hb => exact h.to_exception
  | transmit crc lrc pos x hb hx hmode hpos =>
    obtain ⟨hlen, hle⟩ := h.transmit hb
    exact h.to_transmit hlen (hpos hle) hx hmode (h.driver.1 hb) rfl

end

/-! ### Thresholds -/

theorem two_le_toTicks (c : Config) (us : Nat) : 2 ≤ toTicks c us := Nat.le_max_left _ _

theorem constantsFit_rtu {c : Config} {baud : Nat} (h : constantsFit c baud = true) (hm : c.mode = .rtu) :
    deriveT15 c baud < c.tickModulus ∧ deriveT35 c baud < c.tickModulus := by
  simp only [constantsFit, hm, Bool.and_eq_true, decide_eq_true_eq] at h
  exact h.1

theorem constantsFit_ascii {c : Config} {baud : Nat} (h : constantsFit c baud = true)
    (hm : c.mode = .ascii) : deriveT1s c < c.tickModulus := by
  simp only [constantsFit, hm, Bool.and_eq_true, decide_eq_true_eq] at h
  exact h.1

/-- Thresholds derived from a rate whose constants fit (R11, R170 to R172). -/
theorem timingOk_of_constantsFit {c : Config} {b : Block} {baud : Nat} (hbaud : 1 ≤ b.baud)
    (href : b.tRef < c.tickModulus) (hfit : constantsFit c baud = true)
    (hrtu : c.mode = .rtu → b.t15 = deriveT15 c baud ∧ b.t35 = deriveT35 c baud)
    (hascii : c.mode = .ascii → b.t1s = deriveT1s c) : b.TimingOk c := by
  refine ⟨hbaud, href, fun hm => ?_, fun hm => ?_⟩
  · obtain ⟨h15, h35⟩ := hrtu hm
    obtain ⟨hlt15, hlt35⟩ := constantsFit_rtu hfit hm
    rw [h15, h35]
    exact ⟨two_le_toTicks _ _, hlt15, two_le_toTicks _ _, hlt35⟩
  · rw [hascii hm]
    exact ⟨two_le_toTicks _ _, constantsFit_ascii hfit hm⟩

/-! ### RESET -/

theorem Block.sound_afterReset {c : Config} (b : Block) {now : Nat} (hvalid : Config.valid c = true)
    (hnow : now < c.tickModulus) : (Block.afterReset c b now).Sound c := by
  have hv := hvalid
  simp only [Config.valid, Config.inRange, Bool.and_eq_true, decide_eq_true_eq] at hv
  obtain ⟨⟨⟨-, hbaud⟩, -⟩, hfit⟩ := hv
  have htx : (Block.afterReset c b now).st.txActive = false := by
    rw [Block.afterReset_st]; split_ifs <;> rfl
  have hmode : (Block.afterReset c b now).st.inMode c.mode = true := by
    rw [Block.afterReset_st]; cases c.mode <;> rfl
  exact ⟨hvalid, hmode, ⟨Nat.zero_le _, Nat.zero_le _, rfl, rfl⟩,
    timingOk_of_constantsFit hbaud hnow hfit (fun hm => Block.afterReset_rtu_thresholds hm b now)
      (fun hm => Block.afterReset_ascii_threshold hm b now),
    by simp [Block.TransmitOk, htx], ⟨by simp [htx], fun _ _ => rfl⟩, fun _ => rfl⟩

/-- DUMP and IDLE neither receive nor transmit, so there is nothing to report. -/
theorem Block.statusOk_afterReset (c : Config) (b : Block) (now : Nat) :
    (Block.afterReset c b now).StatusOk c := by
  have hpair : (Block.afterReset c b now).st.statusPair = (false, false) := by
    rw [Block.afterReset_st]; split_ifs <;> rfl
  rw [Block.StatusOk, hpair, ite_self]; rfl

theorem State.Sound.markRefused {s : State} (hs : s.Sound) : s.markRefused.Sound := by
  obtain ⟨⟨hvalid, hmode, hbuf, htime, htx, hdrv, hquiet⟩, hpoll⟩ := hs
  exact ⟨⟨hvalid, hmode, hbuf, htime, htx, hdrv, hquiet⟩, hpoll⟩

theorem State.Inv.markRefused {s : State} (hs : s.Inv) : s.markRefused.Inv := hs

theorem construct_keeps_sound (s : State) (hs : s.Sound) : (construct s).Sound := by
  rcases construct_cases s with ⟨-, h⟩ | ⟨hvalid, h⟩ <;> rw [h]
  · exact hs.markRefused
  · have hsame := sampled_same { s with cfg := s.resetCfg }
    refine ⟨?_, fun hi => nomatch hi⟩
    rw [State.setBlk_cfg, hsame.cfg]
    exact Block.sound_afterReset _ hvalid (now_lt { s with cfg := s.resetCfg })

theorem construct_keeps_inv (s : State) (hs : s.Inv) : (construct s).Inv := by
  rw [State.inv_iff] at hs ⊢
  refine ⟨construct_keeps_sound s hs.1, ?_⟩
  rcases construct_cases s with ⟨-, h⟩ | ⟨-, h⟩ <;> rw [h]
  · exact hs.2
  · rw [State.setBlk_cfg, (sampled_same { s with cfg := s.resetCfg }).cfg]
    exact Block.statusOk_afterReset _ _ _

/-! ### The updates of a command -/

/-- An update of the block that leaves `S.in_poll` alone. -/
theorem State.Sound.setBlk {s : State} {b : Block} (hs : s.Sound) (hb : b.Sound s.cfg)
    (hpoll : b.inPoll = s.blk.inPoll) : (s.setBlk b).Sound :=
  ⟨hb, fun h => hs.poll (hpoll ▸ h)⟩

theorem State.Sound.leaveCollision {s : State} (hs : s.Sound) (hst : s.blk.st = .collision) :
    (leaveCollision s).Sound := by
  have htx : s.blk.st.txActive = false := by rw [hst]; rfl
  have he : s.blk.st ≠ .exception := by simp [hst]
  cases hm : s.cfg.mode with
  | rtu =>
    rw [leaveCollision_rtu hm]
    have hsame := sampled_sameInstance s
    refine (hsame.sound hs).setBlk ?_ (congrArg Block.inPoll hsame.blk).symm
    rw [hsame.cfg]
    exact hs.blk.to_resting htx he rfl (by rw [hm]; rfl) hs.blk.buffer (now_lt s) rfl
  | ascii =>
    rw [leaveCollision_ascii hm]
    exact hs.setBlk (hs.blk.to_resting htx he rfl rfl hs.blk.buffer hs.blk.timing.2.1 rfl) rfl

theorem State.Sound.startTransmit {s : State} (hs : s.Sound) (hlen : s.blk.len < s.cfg.bufferMax) :
    (startTransmit s).Sound := by
  have hcalled (t : State) := sameInstance_txEnable t true
  cases hm : s.cfg.mode with
  | rtu =>
    rw [startTransmit_rtu hm]
    exact (hcalled _).sound (hs.setBlk
      (hs.blk.to_transmit hlen (Nat.zero_le _) rfl (by simp [St.inMode]) rfl rfl) rfl)
  | ascii =>
    rw [startTransmit_ascii hm]
    exact (hcalled _).sound (hs.setBlk
      (hs.blk.to_transmit hlen (Nat.zero_le _) rfl (by simp [St.inMode, hm]) rfl rfl) rfl)

theorem setupBaud_keeps_sound (baud : Nat) {s : State} (hs : s.Sound) : (setupBaud baud s).Sound := by
  rcases setupBaud_cases baud s with h | ⟨h0, hfit, hm, h⟩ | ⟨h0, hfit, hm, h⟩ <;> rw [h]
  · exact hs.markRefused
  all_goals
    obtain ⟨hvalid, hmode, hbuf, htime, htx, hdrv, hquiet⟩ := hs.blk
    refine hs.setBlk ⟨hvalid, hmode, hbuf, ?_, htx, hdrv, hquiet⟩ rfl
    exact timingOk_of_constantsFit (Nat.one_le_iff_ne_zero.2 h0) htime.2.1 hfit (by simp [hm]) (by simp [hm])

theorem State.Sound.compose {s : State} (hs : s.Sound) (hst : s.blk.st.composing = true) (faddr : Byte)
    {len : Nat} {buf : Memory}
    (hok : Config.valid s.cfg = true → PduOk s.cfg s.blk.len s.blk.buf → PduOk s.cfg len buf) :
    (s.setBlk { s.blk with faddr := faddr, len := len, buf := buf }).Sound := by
  obtain ⟨hvalid, hmode, ⟨hlen, hn, hmem⟩, htime, -, hdrv, hquiet⟩ := hs.blk
  obtain ⟨hlen', hmem'⟩ := hok hvalid ⟨hlen, hmem⟩
  have htx : s.blk.st.txActive = false := by
    rcases (St.composing_iff _).1 hst with h | h <;> rw [h] <;> rfl
  exact hs.setBlk ⟨hvalid, hmode, ⟨hlen', hn, hmem'⟩, htime, by simp [Block.TransmitOk, htx], hdrv, hquiet⟩ rfl

/-- An update of a command keeps the invariant but for the notification, and the notification. -/
theorem HostUpdate.kept {s t : State} (h : HostUpdate s t) (hs : s.Sound) :
    t.Sound ∧ (s.blk.StatusOk s.cfg → t.blk.StatusOk t.cfg) := by
  have hreport {t : State} (ht : t.Sound) :
      (statusUpdate t).Sound
        ∧ (s.blk.StatusOk s.cfg → (statusUpdate t).blk.StatusOk (statusUpdate t).cfg) :=
    ((State.inv_iff _).1 ht.inv_statusUpdate).imp_right fun hok _ => hok
  cases h with
  | mark => exact ⟨hs.markRefused, id⟩
  | agents h => exact ⟨h.sound hs, h.statusOk⟩
  | station a =>
    obtain ⟨hvalid, hmode, hbuf, htime, htx, hdrv, hquiet⟩ := hs.blk
    exact ⟨hs.setBlk ⟨hvalid, hmode, hbuf, htime, htx, hdrv, hquiet⟩ rfl, id⟩
  | baud rate =>
    refine ⟨setupBaud_keeps_sound rate hs, fun hok => ?_⟩
    obtain ⟨_, _, _, _, _, h⟩ := setupBaud_only rate s
    rw [h]; exact hok
  | compose faddr len buf hst hok => exact ⟨hs.compose hst faddr hok, id⟩
  | acquire hst =>
    refine hreport (hs.setBlk ?_ rfl)
    refine hs.blk.to_resting ?_ ?_ rfl rfl hs.blk.buffer hs.blk.timing.2.1 rfl <;>
      rcases hst with hst | hst <;> simp [hst, St.txActive]
  | release hst =>
    refine hreport (hs.setBlk ?_ rfl)
    refine hs.blk.to_resting ?_ ?_ rfl rfl hs.blk.buffer hs.blk.timing.2.1 rfl <;>
      rcases hst with hst | hst <;> simp [hst, St.txActive]
  | abort hst => exact hreport (hs.leaveCollision hst)
  | transmit hst hlen => exact hreport (hs.startTransmit hlen)
  | fatal hst => exact hreport (hs.setBlk hs.blk.to_exception rfl)

theorem HostUpdate.keeps_inv {s t : State} (hs : s.Inv) (h : HostUpdate s t) : t.Inv := by
  rw [State.inv_iff] at hs ⊢
  exact (h.kept hs.1).imp_right fun hok => hok hs.2

/-! ### The micro-step and POLL -/

theorem enterFrameReady_keeps_sound {s : State} (hs : (s.goto .frameReady).Sound) :
    (enterFrameReady s).Sound :=
  enterFrameReady_keeps construct_keeps_sound (fun _ _ hs h => (h.kept hs).1)
    (fun _ _ ⟨hblk, hpoll⟩ => ⟨hblk, hpoll⟩) hs

theorem RuleEffect.sound {now : Nat} {s : State} {r : StepAnswer × State} (h : RuleEffect now s r)
    (hnow : now < s.cfg.tickModulus) (hs : s.Sound) : r.2.Sound := by
  refine ⟨by rw [h.cfg]; exact h.blk.sound hs.blk hnow, ?_⟩
  have hpoll : r.2.blk.inPoll = s.blk.inPoll := by
    have hu := h.blk
    generalize r.2.blk = b at hu
    cases hu <;> rfl
  rw [State.PollOk, hpoll, h.polling]; exact hs.poll

theorem StepEffect.sound {now : Nat} {s : State} {r : StepAnswer × State} (h : StepEffect now s r)
    (hnow : now < s.cfg.tickModulus) (hs : s.Sound) : r.2.Sound := by
  cases h with
  | rule h => exact h.sound hnow hs
  | @frame u hu hst n hn =>
    have hb : u.blk.Sound u.cfg := (hu.sound hs).blk
    rw [← hu.blk] at hst hn
    have hlen : u.blk.rxN ≤ u.cfg.bufferMax := hb.buffer.2.1
    refine enterFrameReady_keeps_sound ((hu.sound hs).setBlk ?_ rfl)
    refine hb.to_resting ?_ ?_ rfl rfl ⟨hn.trans hlen, hb.buffer.2⟩ hb.timing.2.1 rfl <;>
      rcases hst with hst | hst <;> simp [hst, St.txActive]

theorem microStep_keeps_inv {s : State} (hs : s.Inv) : (microStep s).2.Inv := by
  obtain ⟨r, hr, ⟨-, h⟩ | ⟨-, h⟩⟩ := microStep_effect s <;> rw [h]
  · exact hs
  · have hsame := sampled_sameInstance s
    exact (hr.sound (hsame.cfg ▸ now_lt s) (hsame.sound ((State.inv_iff s).1 hs).1)).inv_statusUpdate

theorem leavePoll_keeps_inv {s : State} (hs : s.Inv) : (leavePoll s).Inv := by
  obtain ⟨hvalid, hmode, hbuf, htime, htx, hdrv, hstat, -⟩ := hs
  exact ⟨hvalid, hmode, hbuf, htime, htx, hdrv, hstat, fun h => nomatch h⟩

theorem pollLoop_keeps_inv (n : Nat) {s : State} (hs : s.Inv) : (pollLoop n s).Inv := by
  induction n generalizing s with
  | zero => exact hs
  | succ n ih =>
    have hm := microStep_keeps_inv hs
    rcases h : microStep s with ⟨_ | d | _, t⟩ <;> rw [h] at hm
    · rw [pollLoop_again n h]; exact ih hm
    · rw [pollLoop_done n h]; exact (leavePoll_keeps_inv hm : (leavePoll t).Inv)
    · rw [pollLoop_refused n h]; exact leavePoll_keeps_inv hm

theorem runPoll_keeps_inv {s : State} (hs : s.Inv) : (runPoll s).Inv := pollLoop_keeps_inv _ hs

theorem enterPoll_keeps_inv {s : State} (hs : s.Inv) : (enterPoll s).Inv := by
  obtain ⟨hvalid, hmode, hbuf, htime, htx, hdrv, hstat, -⟩ := hs
  exact ⟨hvalid, hmode, hbuf, htime, htx, hdrv, hstat, fun _ => rfl⟩

/-- What POLL does: it is refused, answers 0 in EXCEPTION, or runs its loop. -/
theorem poll_cases (s : State) :
    poll s = s.markRefused ∨ poll s = s.setResult (.deadline 0) ∨ poll s = runPoll (enterPoll s) := by
  by_cases hp : s.blk.inPoll = true ∨ s.polling = true
  · exact .inl (poll_reentered hp)
  · obtain ⟨hi, hp⟩ := not_or.1 hp
    rw [Bool.not_eq_true] at hi hp
    by_cases hst : s.blk.st = .exception
    · exact .inr (.inl (poll_of_exception hi hp hst))
    · exact .inr (.inr (poll_of_ne_exception hi hp hst))

theorem poll_keeps_inv {s : State} (hs : s.Inv) : (poll s).Inv := by
  rcases poll_cases s with h | h | h <;> rw [h]
  · exact hs
  · exact hs
  · exact runPoll_keeps_inv (enterPoll_keeps_inv hs)

/-! ### Arrivals -/

/-- The next `Read` or `Discard` is answered `a` (log 34). -/
def State.prescribe (s : State) (a : RxAnswer) : State :=
  s.setEnv { s.env with rxScript := a :: s.env.rxScript }

theorem arrive_of_ne_exception (b : Byte) {s : State} (hs : s.blk.st ≠ .exception) :
    arrive b s = (microStep (s.prescribe (.bytes [b]))).2 := by
  cases h : s.blk.st <;> simp_all [arrive, State.prescribe]

/-- The next micro-step finds no byte, `T35` after the timing reference (R114). -/
def State.prescribeSilence (s : State) : State :=
  s.setEnv { s.env with
    rxScript := .bytes [] :: s.env.rxScript
    tickScript := (s.blk.tRef + s.blk.t35) :: s.env.tickScript }

theorem silence_of_waiting {s : State} (h : s.blk.st = .receive ∨ s.blk.st = .dump) :
    silence s = (microStep s.prescribeSilence).2 := by
  rcases h with h | h <;> rw [silence, h] <;> rfl

theorem silence_of_other {s : State} (hr : s.blk.st ≠ .receive) (hd : s.blk.st ≠ .dump) :
    silence s = s := by
  cases h : s.blk.st <;> simp_all [silence]

theorem arrive_keeps_inv (b : Byte) {s : State} (hs : s.Inv) : (arrive b s).Inv := by
  by_cases he : s.blk.st = .exception
  · rw [arrive_of_exception he]; exact hs
  · rw [arrive_of_ne_exception b he]; exact microStep_keeps_inv hs

theorem arriveAll_keeps_inv (bs : List Byte) {s : State} (hs : s.Inv) : (arriveAll bs s).Inv := by
  induction bs generalizing s with
  | nil => exact hs
  | cons b bs ih => exact ih (arrive_keeps_inv b hs)

theorem silence_keeps_inv {s : State} (hs : s.Inv) : (silence s).Inv := by
  by_cases h : s.blk.st = .receive ∨ s.blk.st = .dump
  · rw [silence_of_waiting h]; exact microStep_keeps_inv hs
  · rw [silence_of_other (not_or.1 h).1 (not_or.1 h).2]; exact hs

/-! ### The obligations -/

theorem exec_keeps_inv {i : Instr} {s t : State} (hs : s.Inv) (h : exec i s = .next t) : t.Inv := by
  by_cases hreset : i = .reset
  · subst hreset; cases h; exact construct_keeps_inv s hs
  by_cases hpoll : i = .poll
  · subst hpoll; cases h; exact poll_keeps_inv hs
  by_cases hhost : i.space = .command ∨ i.space = .request ∨ i.space = .response
  · exact (exec_updates hhost hpoll hreset h).keeps (fun _ _ hs h => h.keeps_inv hs) hs
  · cases i
    case rtuFrame => cases h; exact silence_keeps_inv (arriveAll_keeps_inv _ hs)
    case asciiFrame => cases h; exact arriveAll_keeps_inv _ hs
    case asciiColon | asciiCr | asciiLf | asciiHexDigit09 | asciiHexDigitUpper | asciiHexDigitLower
        | asciiOther => cases h; exact arrive_keeps_inv _ hs
    all_goals simp [Instr.space] at hhost

/-- What a step does: the POLL under way goes on, nothing happens, the next input is taken and its command
executed or refused, or it changes the agents. -/
theorem step_cases (s : State) :
    (s.polling = true ∧ step s = .next (runPoll s))
      ∨ (s.polling = false ∧ s.env.inputs = [] ∧ step s = .next s)
      ∨ (s.polling = false ∧ ∃ x rest, s.env.inputs = x :: rest
        ∧ ((∃ bytes i, x = .word bytes ∧ decodeCommand bytes = .ok i ∧ step s = exec i s.dropInput)
          ∨ (∃ bytes e, x = .word bytes ∧ decodeCommand bytes = .error e
            ∧ step s = .next s.dropInput.markRefused)
          ∨ ((∀ bytes, x ≠ .word bytes) ∧ step s = .next (stimulate x s.dropInput)))) := by
  cases hp : s.polling with
  | true => exact .inl ⟨rfl, if_pos hp⟩
  | false =>
    refine .inr ?_
    cases hin : s.env.inputs with
    | nil => exact .inl ⟨rfl, rfl, by simp [step, hp, hin]⟩
    | cons x rest =>
      refine .inr ⟨rfl, x, rest, rfl, ?_⟩
      cases x
      case word bytes =>
        cases hd : decodeCommand bytes with
        | ok i => exact .inl ⟨bytes, i, rfl, hd, by simp [step, hp, hin, hd]⟩
        | error e => exact .inr (.inl ⟨bytes, e, rfl, hd, by simp [step, hp, hin, hd]⟩)
      all_goals exact .inr (.inr ⟨fun _ => Input.noConfusion, by simp [step, hp, hin]⟩)

/-- A stimulus writes the agents and the configuration for the next RESET, nothing else. -/
theorem stimulate_only (x : Input) (s : State) :
    ∃ e c, stimulate x s = { s with env := e, resetCfg := c } := by
  cases x <;> exact ⟨_, _, rfl⟩

theorem step_keeps_inv {s t : State} (hs : s.Inv) (h : step s = .next t) : t.Inv := by
  rcases step_cases s with ⟨-, he⟩ | ⟨-, -, he⟩ |
    ⟨-, x, rest, -, ⟨bytes, i, -, -, he⟩ | ⟨bytes, e, -, -, he⟩ | ⟨-, he⟩⟩ <;> rw [he] at h
  · cases h; exact runPoll_keeps_inv hs
  · cases h; exact hs
  · exact exec_keeps_inv (s := s.dropInput) hs h
  · cases h; exact hs
  · cases h
    obtain ⟨e, c, hx⟩ := stimulate_only x s.dropInput
    rw [hx]; exact hs

/-- Settles O55: `Sound` is kept by every update of a rule or a command, and the notification at the end of
each makes it the invariant. -/
theorem invariantIsKept : Obligations.InvariantIsKept :=
  ⟨fun _ _ hs h => step_keeps_inv hs h, fun _ _ _ hs h => exec_keeps_inv hs h⟩

/-- Settles O14: the reset state by evaluation; RESET of the vector configuration by the block it constructs. -/
theorem resetState : Obligations.ResetState := by
  refine ⟨⟨by decide, by decide, by decide, rfl⟩, fun s hcfg hscript hnow => ?_⟩
  have hvalid : Config.valid s.resetCfg = true := by rw [hcfg]; decide
  have hsame := sampled_same { s with cfg := s.resetCfg }
  refine ⟨_, exec_reset_of_valid hvalid, ?_, ?_⟩
  · rw [State.setBlk_cfg, hsame.cfg]; exact hcfg
  · have hzero : State.now { s with cfg := s.resetCfg } = 0 := by
      simp [State.now, ticks, hscript, hnow]
    rw [State.setBlk_blk, hzero, hcfg]
    simp [Block.afterReset, Config.vector, State.reset, deriveT15, deriveT35, toTicks, t15Us, t35Us,
      tickFloor, baudThreshold]

end Sys2Proof.Machine
end

section
/-! PROOF of O26, O56 and O60, each by following the updates of a micro-step and of a command: which answers
are refused (20_memory.md R91), the accumulators (40_checksum.md R162, R167), the configuration (10_state.md
R30, R53). -/

namespace Sys2Proof.Machine

/-! ### Answers out of range -/

theorem CallsMade.followed {bad : Prop} {s t u : State} (h : CallsMade bad s t)
    (k : CallsMade False t u) : CallsMade bad s u := by
  obtain ⟨cs, hcs, hb⟩ := h
  obtain ⟨ds, hds, hf⟩ := k
  refine ⟨cs ++ ds, by rw [hds, hcs, List.append_assoc], ?_⟩
  rw [← hb]
  simp only [List.mem_append, or_and_right, exists_or, hf, or_false]

theorem leaveCollision_calls (s : State) : CallsMade False s (leaveCollision s) := by
  cases hm : s.cfg.mode with
  | rtu => rw [leaveCollision_rtu hm]; exact (sampled_sameInstance s).calls
  | ascii => rw [leaveCollision_ascii hm]; exact .none rfl

theorem startTransmit_calls (s : State) : CallsMade False s (startTransmit s) := by
  cases hm : s.cfg.mode with
  | rtu => rw [startTransmit_rtu hm]; exact .one rfl (by simp [Call.OutOfRange])
  | ascii => rw [startTransmit_ascii hm]; exact .one rfl (by simp [Call.OutOfRange])

theorem setupBaud_calls (baud : Nat) (s : State) : CallsMade False s (setupBaud baud s) := by
  obtain ⟨_, _, _, _, _, h⟩ := setupBaud_only baud s
  rw [h]; exact .none rfl

/-- No command calls `Write`, `Read` or `Discard`. -/
theorem HostUpdate.calls {s t : State} (h : HostUpdate s t) : CallsMade False s t := by
  cases h with
  | mark | station | compose => exact .none rfl
  | agents h => exact h.calls
  | baud rate => exact setupBaud_calls rate s
  | acquire | release | fatal => exact statusUpdate_calls (s.goto _)
  | abort => exact (leaveCollision_calls s).followed (statusUpdate_calls _)
  | transmit => exact (startTransmit_calls s).followed (statusUpdate_calls _)

theorem construct_calls (s : State) : CallsMade False s (construct s) := by
  rcases construct_cases s with ⟨-, h⟩ | ⟨-, h⟩ <;> rw [h]
  · exact .none rfl
  · exact (sampled_sameInstance { s with cfg := s.resetCfg }).calls

theorem enterFrameReady_calls (s : State) : CallsMade False s (enterFrameReady s) :=
  enterFrameReady_keeps (P := CallsMade False s) (fun t h => h.followed (construct_calls t))
    (fun _ _ h hu => h.followed hu.calls)
    (fun _ _ h => h.followed (.one rfl (by simp [Call.OutOfRange]))) (.none rfl)

theorem StepEffect.calls {now : Nat} {s : State} {r : StepAnswer × State} (h : StepEffect now s r)
    (hmode : s.blk.st.inMode s.cfg.mode = true) : CallsMade (r.1 = .refused) s r.2 := by
  cases h with
  | rule h =>
    obtain ⟨bad, hcalls, hbad⟩ := h.calls
    exact hcalls.congr (hbad hmode)
  | @frame u hu hst n hn =>
    exact (hu.calls.trans (enterFrameReady_calls (u.setLen n))).congr (by simp)

/-- A micro-step's calls, and whether one of them was answered out of range. -/
theorem microStep_calls {s : State} (hmode : s.blk.st.inMode s.cfg.mode = true) :
    CallsMade ((microStep s).1 = .refused) s (microStep s).2 := by
  have hsame := sampled_sameInstance s
  obtain ⟨r, hr, h⟩ := microStep_effect s
  have hcalls : CallsMade (r.1 = .refused) s r.2 :=
    hsame.calls.trans (hr.calls (by rw [hsame.blk, hsame.cfg]; exact hmode))
  rcases h with ⟨ha, h⟩ | ⟨ha, h⟩ <;> rw [h]
  · exact hcalls.congr (by simp [ha])
  · exact hcalls.followed (statusUpdate_calls r.2)

/-- Settles O26: the calls of a micro-step are its rule's, and only an answer out of range refuses. -/
theorem outOfRangeAnswersAreRefused : Obligations.OutOfRangeAnswersAreRefused := by
  intro s t a hmode h
  constructor
  · obtain ⟨cs, hcs, hbad⟩ := microStep_calls hmode
    rw [h] at hcs hbad
    rw [hcs, List.drop_left]
    exact hbad.symm
  · rintro rfl
    obtain ⟨r, -, ⟨-, hr⟩ | ⟨hr, hr'⟩⟩ := microStep_effect s
    · cases h.symm.trans hr
      exact ⟨rfl, rfl, rfl, rfl⟩
    · exact absurd (congrArg Prod.fst (h.symm.trans hr')).symm hr

/-! ### The accumulators -/

/-- The cells from 0 on hold the bytes `bs`. -/
def Memory.Holds (m : Memory) (bs : List Byte) : Prop :=
  ∀ i, i < bs.length → Memory.read m i = bs[i]?

theorem Memory.holds_nil (m : Memory) : Memory.Holds m [] := fun i hi => absurd hi (Nat.not_lt_zero i)

theorem Memory.Holds.write {m : Memory} {bs : List Byte} (h : Memory.Holds m bs) (v : Byte) :
    Memory.Holds (Memory.write m bs.length v) (bs ++ [v]) := by
  intro i hi
  rw [List.length_append, List.length_singleton] at hi
  rw [Memory.read_write]
  rcases Nat.lt_or_eq_of_le (Nat.le_of_lt_succ hi) with hlt | rfl
  · rw [if_neg hlt.ne, List.getElem?_append_left hlt, h i hlt]
  · simp

/-- Written cells read as the bytes they hold, and only cells that hold bytes have been written. -/
theorem State.holds_iff (s : State) (bs : List Byte) :
    Memory.Holds s.blk.buf bs
      ↔ Memory.written s.blk.buf bs.length = true ∧ s.cells 0 bs.length = bs := by
  rw [Memory.written_iff]
  constructor
  · intro h
    refine ⟨fun i hi => ⟨bs[i], by rw [h i hi, List.getElem?_eq_getElem hi]⟩, ?_⟩
    refine List.ext_getElem (by simp [State.cells]) fun i _ hi => ?_
    simp only [State.cells, List.getElem_map, List.getElem_range, Nat.zero_add]
    exact s.cell_of_read i _ (by rw [h i hi, List.getElem?_eq_getElem hi])
  · rintro ⟨hw, hcells⟩ i hi
    obtain ⟨v, hv⟩ := hw i hi
    calc Memory.read s.blk.buf i = some (s.cell i) := by rw [s.cell_of_read i v hv, hv]
      _ = (s.cells 0 bs.length)[i]? := by simp [State.cells, hi]
      _ = bs[i]? := by rw [hcells]

/-- `State.CrcOk` in terms of the bytes received. -/
def Block.CrcHolds (b : Block) : Prop :=
  b.st = .receive → ∃ bs, bs.length = b.rxN ∧ Memory.Holds b.buf bs
    ∧ b.crc = crcUpdate 0xFFFF#16 (b.faddr :: bs)

/-- `State.LrcOk` in terms of the bytes received. -/
def Block.LrcHolds (b : Block) : Prop :=
  ((b.st = .rxAddrHi ∨ b.st = .rxAddrLo) → b.lrc = 0#8 ∧ b.rxN = 0)
    ∧ ((b.st = .rxDataHi ∨ b.st = .rxDataLo ∨ b.st = .rxLf) →
        ∃ bs, bs.length = b.rxN ∧ Memory.Holds b.buf bs ∧ b.lrc = lrcUpdate 0#8 (b.faddr :: bs))

/-- Bytes held below `S.rx_n` are the cells read there. -/
theorem State.exists_holds_iff (s : State) (p : List Byte → Prop) :
    (∃ bs, bs.length = s.blk.rxN ∧ Memory.Holds s.blk.buf bs ∧ p bs)
      ↔ Memory.written s.blk.buf s.blk.rxN = true ∧ p (s.cells 0 s.blk.rxN) := by
  constructor
  · rintro ⟨bs, hlen, hbs, hp⟩
    obtain ⟨hw, hcells⟩ := (s.holds_iff bs).1 hbs
    rw [hlen] at hw hcells
    exact ⟨hw, hcells ▸ hp⟩
  · rintro ⟨hw, hp⟩
    have hlen : (s.cells 0 s.blk.rxN).length = s.blk.rxN := s.cells_length 0 _
    exact ⟨_, hlen, (s.holds_iff _).2 (by rw [hlen]; exact ⟨hw, rfl⟩), hp⟩

theorem State.crcOk_iff (s : State) : s.CrcOk ↔ s.blk.CrcHolds :=
  imp_congr_right fun _ =>
    (s.exists_holds_iff fun bs => s.blk.crc = crcUpdate 0xFFFF#16 (s.blk.faddr :: bs)).symm

theorem State.lrcOk_iff (s : State) : s.LrcOk ↔ s.blk.LrcHolds :=
  and_congr Iff.rfl (imp_congr_right fun _ =>
    (s.exists_holds_iff fun bs => s.blk.lrc = lrcUpdate 0#8 (s.blk.faddr :: bs)).symm)

/-- Both accumulators are those of the address and the bytes received. -/
structure Block.Summed (b : Block) : Prop where
  crc : b.CrcHolds
  lrc : b.LrcHolds

/-- Outside the reception states there is nothing to sum. -/
theorem Block.summed_of_not_rx {b : Block} (h : b.st.rxActive = false) : b.Summed := by
  refine ⟨fun hst => ?_, fun hst => ?_, fun hst => ?_⟩
  · simp [hst, St.rxActive] at h
  · rcases hst with hst | hst <;> simp [hst, St.rxActive] at h
  · rcases hst with hst | hst | hst <;> simp [hst, St.rxActive] at h

/-- An update that leaves alone what the accumulators sum. -/
theorem Block.Summed.congr {b b' : Block} (h : b.Summed)
    (heq : (b'.st, b'.rxN, b'.buf, b'.faddr, b'.crc, b'.lrc) = (b.st, b.rxN, b.buf, b.faddr, b.crc, b.lrc)) :
    b'.Summed := by
  simp only [Prod.mk.injEq] at heq
  obtain ⟨hst, hn, hbuf, hfaddr, hcrc, hlrc⟩ := heq
  obtain ⟨hc, hl⟩ := h
  refine ⟨?_, ?_⟩
  · rw [Block.CrcHolds, hst, hn, hbuf, hfaddr, hcrc]; exact hc
  · rw [Block.LrcHolds, hst, hn, hbuf, hfaddr, hlrc]; exact hl

/-- RECEIVE sums into the CRC alone. -/
theorem Block.summed_of_receive {b : Block} (hst : b.st = .receive) {bs : List Byte} (hlen : bs.length = b.rxN)
    (hbs : Memory.Holds b.buf bs) (hcrc : b.crc = crcUpdate 0xFFFF#16 (b.faddr :: bs)) : b.Summed :=
  ⟨fun _ => ⟨bs, hlen, hbs, hcrc⟩, by simp [hst], by simp [hst]⟩

/-- The address digits of a character frame: nothing is summed yet. -/
theorem Block.summed_of_address {b : Block} (hst : b.st = .rxAddrHi ∨ b.st = .rxAddrLo)
    (h : b.lrc = 0#8 ∧ b.rxN = 0) : b.Summed := by
  refine ⟨fun hst' => ?_, fun _ => h, fun hst' => ?_⟩ <;> rcases hst with hst | hst <;> simp [hst] at hst'

/-- From the address of a character frame on the LRC takes every byte. -/
theorem Block.summed_of_data {b : Block} (hst : b.st = .rxDataHi ∨ b.st = .rxDataLo ∨ b.st = .rxLf)
    {bs : List Byte} (hlen : bs.length = b.rxN) (hbs : Memory.Holds b.buf bs)
    (hlrc : b.lrc = lrcUpdate 0#8 (b.faddr :: bs)) : b.Summed := by
  refine ⟨fun hst' => ?_, fun hst' => ?_, fun _ => ⟨bs, hlen, hbs, hlrc⟩⟩ <;>
    rcases hst with hst | hst | hst <;> simp [hst] at hst'

theorem RuleUpdate.summed {c : Config} {now : Nat} {b b' : Block} (h : RuleUpdate c now b b')
    (hs : b.Summed) : b'.Summed := by
  cases h with
  | same => exact hs
  | rest x n hb he hrx => exact Block.summed_of_not_rx hrx
  | gap => exact hs.congr rfl
  | address a => exact Block.summed_of_receive rfl (bs := []) rfl (Memory.holds_nil _) rfl
  | byte v hst =>
    obtain ⟨bs, hlen, hbs, hcrc⟩ := hs.crc hst
    refine Block.summed_of_receive hst (bs := bs ++ [v]) (by simp [hlen]) (hlen ▸ hbs.write v) ?_
    rw [← List.cons_append, crcUpdate_append, ← hcrc]; rfl
  | colon => exact Block.summed_of_address (.inl rfl) ⟨rfl, rfl⟩
  | addrHi d hm hst => exact Block.summed_of_address (.inr rfl) (hs.lrc.1 (.inl hst))
  | addrLo a hm hst =>
    obtain ⟨hl, hn⟩ := hs.lrc.1 (.inr hst)
    refine Block.summed_of_data (.inl rfl) (bs := []) hn.symm (Memory.holds_nil _) ?_
    rw [hl]; rfl
  | dataHi d hm hst =>
    obtain ⟨bs, hlen, hbs, hlrc⟩ := hs.lrc.2 (.inl hst)
    exact Block.summed_of_data (.inr (.inl rfl)) hlen hbs hlrc
  | dataLo v hm hst =>
    obtain ⟨bs, hlen, hbs, hlrc⟩ := hs.lrc.2 (.inr (.inl hst))
    refine Block.summed_of_data (.inl rfl) (bs := bs ++ [v]) (by simp [hlen]) (hlen ▸ hbs.write v) ?_
    rw [← List.cons_append, lrcUpdate_append, ← hlrc]; rfl
  | cr hm hst =>
    obtain ⟨bs, hlen, hbs, hlrc⟩ := hs.lrc.2 (.inl hst)
    exact Block.summed_of_data (.inr (.inr rfl)) hlen hbs hlrc
  | release x hb hrx => exact Block.summed_of_not_rx hrx
  | fatal => exact Block.summed_of_not_rx rfl
  | transmit crc lrc pos x hb hx =>
    refine Block.summed_of_not_rx ?_
    change x.rxActive = false
    cases x <;> simp_all [St.rxActive, St.txActive]

theorem statusUpdate_summed {s : State} (h : s.blk.Summed) : (statusUpdate s).blk.Summed := by
  obtain ⟨_, _, he⟩ := statusUpdate_only s
  rw [he]; exact h.congr rfl

theorem HostUpdate.summed {s t : State} (hs : s.blk.Summed) (h : HostUpdate s t) : t.blk.Summed := by
  cases h with
  | mark | station => exact hs.congr rfl
  | agents h => rw [h.blk]; exact hs
  | baud rate =>
    obtain ⟨_, _, _, _, _, he⟩ := setupBaud_only rate s
    rw [he]; exact hs.congr rfl
  | compose faddr len buf hst =>
    refine Block.summed_of_not_rx ?_
    rcases (St.composing_iff _).1 hst with h | h <;> simp [h, St.rxActive]
  | acquire | release | fatal => exact statusUpdate_summed (Block.summed_of_not_rx rfl)
  | abort =>
    refine statusUpdate_summed (Block.summed_of_not_rx ?_)
    cases hm : s.cfg.mode
    · rw [leaveCollision_rtu hm]; rfl
    · rw [leaveCollision_ascii hm]; rfl
  | transmit =>
    refine statusUpdate_summed (Block.summed_of_not_rx ?_)
    cases hm : s.cfg.mode
    · rw [startTransmit_rtu hm]; rfl
    · rw [startTransmit_ascii hm]; rfl

theorem construct_summed (s : State) (hs : s.blk.Summed) : (construct s).blk.Summed := by
  rcases construct_cases s with ⟨-, h⟩ | ⟨-, h⟩ <;> rw [h]
  · exact hs.congr rfl
  · refine Block.summed_of_not_rx ?_
    rw [State.setBlk_blk, Block.afterReset_st]
    split_ifs <;> rfl

theorem microStep_summed {s : State} (hs : s.blk.Summed) : (microStep s).2.blk.Summed := by
  obtain ⟨r, hr, ⟨-, h⟩ | ⟨-, h⟩⟩ := microStep_effect s <;> rw [h]
  · exact hs.congr rfl
  · refine statusUpdate_summed ?_
    cases hr with
    | rule hr => exact hr.blk.summed (by rw [(sampled_same s).blk]; exact hs)
    | frame hu =>
      exact enterFrameReady_keeps (P := fun t => t.blk.Summed) construct_summed
        (fun _ _ h hu => hu.summed h) (fun _ _ h => h) (Block.summed_of_not_rx rfl)

theorem pollLoop_summed (n : Nat) {s : State} (hs : s.blk.Summed) : (pollLoop n s).blk.Summed := by
  induction n generalizing s with
  | zero => exact hs
  | succ n ih =>
    have hm := microStep_summed hs
    rcases h : microStep s with ⟨_ | d | _, t⟩ <;> rw [h] at hm
    · rw [pollLoop_again n h]; exact ih hm
    · rw [pollLoop_done n h]; exact hm.congr rfl
    · rw [pollLoop_refused n h]; exact hm.congr rfl

theorem poll_summed {s : State} (hs : s.blk.Summed) : (poll s).blk.Summed := by
  rcases poll_cases s with h | h | h <;> rw [h]
  · exact hs.congr rfl
  · exact hs
  · exact pollLoop_summed _ (hs.congr rfl)

theorem exec_command_summed {i : Instr} {s t : State} (hi : i.space = .command) (hs : s.blk.Summed)
    (h : exec i s = .next t) : t.blk.Summed := by
  by_cases hreset : i = .reset
  · subst hreset; cases h; exact construct_summed s hs
  by_cases hpoll : i = .poll
  · subst hpoll; cases h; exact poll_summed hs
  exact (exec_updates (.inl hi) hpoll hreset h).keeps (P := fun t => t.blk.Summed)
    (fun _ _ h hu => hu.summed h) hs

/-- Settles O56: no update of a rule or a command sets the accumulators apart from the address and the
bytes stored. -/
theorem stepKeepsAccumulators : Obligations.StepKeepsAccumulators := by
  intro s t hcrc hlrc h
  have hs : s.blk.Summed := ⟨s.crcOk_iff.1 hcrc, s.lrcOk_iff.1 hlrc⟩
  suffices ht : t.blk.Summed from ⟨t.crcOk_iff.2 ht.crc, t.lrcOk_iff.2 ht.lrc⟩
  rcases step_cases s with ⟨-, he⟩ | ⟨-, -, he⟩ |
    ⟨-, x, rest, -, ⟨bytes, i, -, hd, he⟩ | ⟨bytes, e, -, -, he⟩ | ⟨-, he⟩⟩ <;> rw [he] at h
  · cases h; exact pollLoop_summed _ hs
  · cases h; exact hs
  · exact exec_command_summed (s := s.dropInput) (decodeCommand_eq_ok_iff.1 hd).1 hs h
  · cases h; exact hs.congr rfl
  · cases h
    obtain ⟨e, c, hx⟩ := stimulate_only x s.dropInput
    rw [hx]; exact hs

/-! ### The configuration and the refusal mark -/

/-- The configuration, the one prepared for RESET and the callback are as they were, and a refusal mark
stays. -/
structure Configured (s t : State) : Prop where
  cfg : t.cfg = s.cfg
  resetCfg : t.resetCfg = s.resetCfg
  callback : t.env.callback = s.env.callback
  refused : s.blk.refused = true → t.blk.refused = true

theorem Configured.refl (s : State) : Configured s s := ⟨rfl, rfl, rfl, id⟩

theorem Configured.trans {s t u : State} (h : Configured s t) (k : Configured t u) : Configured s u :=
  ⟨k.cfg.trans h.cfg, k.resetCfg.trans h.resetCfg, k.callback.trans h.callback, k.refused ∘ h.refused⟩

/-- An update of the block that leaves the refusal mark alone. -/
theorem setBlk_configured (s : State) {b : Block} (hb : b.refused = s.blk.refused) :
    Configured s (s.setBlk b) := ⟨rfl, rfl, rfl, by rw [State.setBlk_blk, hb]; exact id⟩

theorem goto_configured (s : State) (x : St) : Configured s (s.goto x) := setBlk_configured s rfl

theorem Called.configured {bad : Prop} {s t : State} (h : Called bad s t) : Configured s t :=
  ⟨h.cfg, h.resetCfg, h.callback, by rw [h.blk]; exact id⟩

theorem statusUpdate_configured (s : State) : Configured s (statusUpdate s) := by
  obtain ⟨_, _, h⟩ := statusUpdate_only s
  rw [h]; exact ⟨rfl, rfl, rfl, id⟩

theorem leaveCollision_configured (s : State) : Configured s (leaveCollision s) := by
  cases hm : s.cfg.mode with
  | rtu =>
    rw [leaveCollision_rtu hm]
    have h := sampled_same s
    exact ⟨h.cfg, h.resetCfg, h.callback, id⟩
  | ascii => rw [leaveCollision_ascii hm]; exact ⟨rfl, rfl, rfl, id⟩

theorem startTransmit_configured (s : State) : Configured s (startTransmit s) := by
  cases hm : s.cfg.mode with
  | rtu => rw [startTransmit_rtu hm]; exact ⟨rfl, rfl, rfl, id⟩
  | ascii => rw [startTransmit_ascii hm]; exact ⟨rfl, rfl, rfl, id⟩

theorem setupBaud_configured (baud : Nat) (s : State) : Configured s (setupBaud baud s) := by
  rcases setupBaud_cases baud s with h | ⟨-, -, -, h⟩ | ⟨-, -, -, h⟩ <;> rw [h]
  · exact ⟨rfl, rfl, rfl, fun _ => rfl⟩
  · exact ⟨rfl, rfl, rfl, id⟩
  · exact ⟨rfl, rfl, rfl, id⟩

theorem HostUpdate.configured {s t : State} (h : HostUpdate s t) : Configured s t := by
  cases h with
  | mark => exact ⟨rfl, rfl, rfl, fun _ => rfl⟩
  | station | compose => exact ⟨rfl, rfl, rfl, id⟩
  | agents h => exact h.configured
  | baud rate => exact setupBaud_configured rate s
  | acquire | release | fatal => exact (goto_configured s _).trans (statusUpdate_configured _)
  | abort => exact (leaveCollision_configured s).trans (statusUpdate_configured _)
  | transmit => exact (startTransmit_configured s).trans (statusUpdate_configured _)

theorem HostUpdates.configured {s t : State} (h : HostUpdates s t) : Configured s t :=
  h.keeps (P := Configured s) (fun _ _ h hu => h.trans hu.configured) (.refl s)

theorem RuleEffect.configured {now : Nat} {s : State} {r : StepAnswer × State} (h : RuleEffect now s r) :
    Configured s r.2 := by
  refine ⟨h.cfg, h.resetCfg, h.callback, fun hr => ?_⟩
  have hu := h.blk
  generalize r.2.blk = b at hu
  cases hu <;> exact hr

/-- Without a callback the entry into FRAME_READY is the dispatcher's work or none. -/
theorem enterFrameReady_configured {s : State} (hs : s.NoCallback) : Configured s (enterFrameReady s) := by
  cases hd : s.cfg.dispatcherAttached with
  | true => rw [enterFrameReady_of_dispatcher hd]; exact (goto_configured s _).trans (dispatch_updates _).configured
  | false => rw [enterFrameReady_of_noCallback hd hs]; exact goto_configured s _

theorem microStep_configured {s : State} (hs : s.NoCallback) : Configured s (microStep s).2 := by
  have hsame := sampled_sameInstance s
  obtain ⟨r, hr, h⟩ := microStep_effect s
  have hconf : Configured s r.2 := by
    refine hsame.configured.trans ?_
    cases hr with
    | rule hr => exact hr.configured
    | @frame u hu hst n hn =>
      have hnone : (u.setLen n).NoCallback := hu.callback.trans (hsame.callback.trans hs)
      have hlen : Configured u (u.setLen n) := setBlk_configured u rfl
      exact (hu.configured.trans hlen).trans (enterFrameReady_configured hnone)
  rcases h with ⟨-, h⟩ | ⟨-, h⟩ <;> rw [h]
  · exact ⟨rfl, rfl, hconf.callback, fun _ => rfl⟩
  · exact hconf.trans (statusUpdate_configured r.2)

theorem pollLoop_configured (n : Nat) {s : State} (hs : s.NoCallback) : Configured s (pollLoop n s) := by
  induction n generalizing s with
  | zero => exact .refl s
  | succ n ih =>
    have hm := microStep_configured hs
    rcases h : microStep s with ⟨_ | d | _, t⟩ <;> rw [h] at hm
    · rw [pollLoop_again n h]; exact hm.trans (ih (hm.callback.trans hs))
    · rw [pollLoop_done n h]; exact hm.trans ⟨rfl, rfl, rfl, id⟩
    · rw [pollLoop_refused n h]; exact hm.trans ⟨rfl, rfl, rfl, id⟩

theorem poll_configured {s : State} (hs : s.NoCallback) : Configured s (poll s) := by
  rcases poll_cases s with h | h | h <;> rw [h]
  · exact ⟨rfl, rfl, rfl, fun _ => rfl⟩
  · exact ⟨rfl, rfl, rfl, id⟩
  · have henter : Configured s (enterPoll s) := ⟨rfl, rfl, rfl, id⟩
    exact henter.trans (pollLoop_configured _ (s := enterPoll s) hs)

theorem arrive_configured (b : Byte) {s : State} (hs : s.NoCallback) : Configured s (arrive b s) := by
  by_cases he : s.blk.st = .exception
  · rw [arrive_of_exception he]; exact ⟨rfl, rfl, rfl, id⟩
  · have hprescribe : Configured s (s.prescribe (.bytes [b])) := ⟨rfl, rfl, rfl, id⟩
    rw [arrive_of_ne_exception b he]
    exact hprescribe.trans (microStep_configured (s := s.prescribe (.bytes [b])) hs)

theorem arriveAll_configured (bs : List Byte) {s : State} (hs : s.NoCallback) :
    Configured s (arriveAll bs s) := by
  induction bs generalizing s with
  | nil => exact .refl s
  | cons b bs ih =>
    have hb := arrive_configured b hs
    exact hb.trans (ih (hb.callback.trans hs))

theorem silence_configured {s : State} (hs : s.NoCallback) : Configured s (silence s) := by
  by_cases h : s.blk.st = .receive ∨ s.blk.st = .dump
  · have hprescribe : Configured s s.prescribeSilence := ⟨rfl, rfl, rfl, id⟩
    rw [silence_of_waiting h]
    exact hprescribe.trans (microStep_configured (s := s.prescribeSilence) hs)
  · rw [silence_of_other (not_or.1 h).1 (not_or.1 h).2]; exact .refl s

/-- Settles O60: every update of a rule or a command keeps the configuration; RESET is no such update. -/
theorem onlyResetReconfigures : Obligations.OnlyResetReconfigures := by
  intro i s t hreset hs h
  suffices hc : Configured s t from ⟨hc.cfg, hc.resetCfg, hc.refused⟩
  by_cases hpoll : i = .poll
  · subst hpoll; cases h; exact poll_configured hs
  by_cases hhost : i.space = .command ∨ i.space = .request ∨ i.space = .response
  · exact (exec_updates hhost hpoll hreset h).configured
  · cases i
    case rtuFrame a pdu lo hi =>
      cases h
      have hall := arriveAll_configured (encode (.rtuFrame a pdu lo hi)) hs
      exact hall.trans (silence_configured (hall.callback.trans hs))
    case asciiFrame => cases h; exact arriveAll_configured _ hs
    case asciiColon | asciiCr | asciiLf | asciiHexDigit09 | asciiHexDigitUpper | asciiHexDigitLower
        | asciiOther => cases h; exact arrive_configured _ hs
    all_goals simp [Instr.space] at hhost

end Sys2Proof.Machine
end

section
/-! PROOF of O31 and O42: the phases of a transmission (42_rtu_engine.md R262 to R266, 43_ascii_engine.md R317
to R321). Every phase offers bytes to `Write`, and what a micro-step makes of the answer is said once. -/

namespace Sys2Proof.Machine

/-! ### The rule a micro-step runs -/

/-- What a transmit state of RTU mode does after the discard of the echo (R263 to R266). -/
def rtuTxRule (now : Nat) : St → Option (Nat → State → StepAnswer × State)
  | .txAddress => some rtuTxAddress
  | .txPdu => some rtuTxPdu
  | .txChecksum => some rtuTxChecksum
  | .txDrain => some (txDrain .dump now)
  | _ => none

theorem exists_rtuTxRule (now : Nat) {x : St}
    (h : x = .txAddress ∨ x = .txPdu ∨ x = .txChecksum ∨ x = .txDrain) :
    ∃ phase, rtuTxRule now x = some phase := by
  rcases h with rfl | rfl | rfl | rfl <;> exact ⟨_, rfl⟩

theorem stepState_sampled_rtuTx {s : State} (hm : s.cfg.mode = .rtu)
    {phase : Nat → State → StepAnswer × State} (hphase : rtuTxRule s.now s.blk.st = some phase) :
    stepState s.now s.sampled = stepTransmit .dump s.now phase s.sampled := by
  have hsame := sampled_same s
  cases hst : s.blk.st <;> simp only [hst, rtuTxRule, Option.some.injEq, reduceCtorEq] at hphase
  all_goals
    rw [stepState_sampled_rtu hm (by simp [hst, St.holder]) (by simp [hst]), stepRtu, hsame.blk, hst,
      ← hphase]

/-! ### The cells a phase offers -/

/-- The cells read depend on the buffer and the present draw alone. -/
theorem SameBlock.cells {s t : State} (h : SameBlock s t) (i j : Nat) : t.cells i j = s.cells i j := by
  simp only [State.cells, State.cell, h.blk, h.draws]

theorem SameBlock.pdu {s t : State} (h : SameBlock s t) : t.pdu = s.pdu := by
  rw [State.pdu, State.pdu, h.cells, h.blk]

/-! ### What a micro-step makes of the answer of `Write` -/

/-- A phase that offers bytes: a write error is fatal, nothing accepted ends the POLL unless echo was
discarded, and `n` bytes accepted are `after n`. -/
theorem microStep_offer {s t u : State} {seq : List Byte} {after : Nat → Block → Block} {k : Nat}
    {w : WriteResult} (hrule : stepState s.now s.sampled = offer seq after k t) (hblk : t.blk = s.blk)
    (hw : write seq t = (w, u)) :
    (w = .err → microStep s = (.done 0, statusUpdate (u.setBlk { s.blk with st := .exception })))
      ∧ (w = .accepted 0 → microStep s = (if 0 < k then .again else .done 0, statusUpdate u))
      ∧ (∀ n, 0 < n → w = .accepted n →
          microStep s = (.again, statusUpdate (u.setBlk (after n s.blk)))) := by
  rw [← hblk, ← (write_same hw).blk]
  refine ⟨?_, ?_, ?_⟩
  · rintro rfl; exact microStep_done (hrule.trans (offer_of_err after k hw))
  · rintro rfl; exact microStep_idleAfter (hrule.trans (offer_of_nothing after k hw))
  · rintro n hn rfl; exact microStep_again (hrule.trans (offer_of_accepted after k hn hw))

/-- Settles O31: the echo discard and its abort are `stepTransmit`; each phase that writes is an offer. -/
theorem rtuTransmitPhases : Obligations.RtuTransmitPhases := by
  intro s t hm
  refine ⟨fun hst hd => ?abort, fun k hd => ?_⟩
  case abort =>
    obtain ⟨phase, hphase⟩ := exists_rtuTxRule s.now hst
    rw [← (discard_sampled_same hd).blk]
    exact microStep_again ((stepState_sampled_rtuTx hm hphase).trans (stepTransmit_of_err _ _ phase hd))
  have hsame := discard_sampled_same hd
  have hrule {x : St} {phase : Nat → State → StepAnswer × State} (hst : s.blk.st = x)
      (hphase : rtuTxRule s.now x = some phase) : stepState s.now s.sampled = phase k t := by
    rw [stepState_sampled_rtuTx hm (hst ▸ hphase), stepTransmit_of_count _ _ phase hd]
  intro nothingDone
  refine ⟨fun hst w u hw => ?address, fun hst hpos => ?pduEnd, fun hst hpos w u hw => ?pdu,
    fun hst hpos => ?checksumEnd, fun hst hpos w u hw => ?checksum, fun hst u hw => ?complete,
    fun hst u hw => ?pending⟩
  case address =>
    rw [← hsame.blk] at hw
    exact microStep_offer ((hrule hst rfl).trans (rtuTxAddress_eq k t)) hsame.blk hw
  case pduEnd =>
    rw [← hsame.blk] at hpos ⊢
    exact microStep_again ((hrule hst rfl).trans (rtuTxPdu_of_end k hpos))
  case pdu =>
    rw [← hsame.blk] at hpos
    have ho := (hrule hst rfl).trans (rtuTxPdu_of_rest k hpos)
    rw [hsame.blk, hsame.cells] at ho
    exact microStep_offer ho hsame.blk hw
  case checksumEnd =>
    rw [← hsame.blk] at hpos ⊢
    exact microStep_again ((hrule hst rfl).trans (rtuTxChecksum_of_end k hpos))
  case checksum =>
    rw [← hsame.blk] at hpos
    have ho := (hrule hst rfl).trans (rtuTxChecksum_of_rest k hpos)
    rw [hsame.blk] at ho
    exact microStep_offer ho hsame.blk hw
  case complete =>
    rw [← (hsame.trans (writeComplete_same hw)).blk]
    exact microStep_again ((hrule hst rfl).trans (txDrain_of_complete _ _ k hw))
  case pending => exact microStep_idleAfter ((hrule hst rfl).trans (txDrain_of_pending _ _ k hw))

/-- A character phase: at its end the next one begins, before it the rest of its characters is offered. -/
theorem microStep_phaseWrite {s t : State} {seq : List Byte} {next : St} {exit : Block → Block}
    {accepted : Nat → Block → Block} {k : Nat} {atEnd : Block} {after : Nat → Block}
    (hrule : stepState s.now s.sampled = phaseWrite seq next exit accepted k t) (hblk : t.blk = s.blk)
    (hend : { exit s.blk with txPos := 0, st := next } = atEnd)
    (hafter : ∀ n, { accepted n s.blk with txPos := s.blk.txPos + n } = after n) :
    (s.blk.txPos = seq.length → microStep s = (.again, statusUpdate (t.setBlk atEnd)))
      ∧ (s.blk.txPos ≠ seq.length → ∀ w u, write (seq.drop s.blk.txPos) t = (w, u) →
        (w = .err → microStep s = (.done 0, statusUpdate (u.setBlk { s.blk with st := .exception })))
        ∧ (w = .accepted 0 → microStep s = (if 0 < k then .again else .done 0, statusUpdate u))
        ∧ (∀ n, 0 < n → w = .accepted n →
            microStep s = (.again, statusUpdate (u.setBlk (after n))))) := by
  refine ⟨fun hpos => ?_, fun hpos w u hw => ?_⟩
  · rw [← hend, ← hblk]
    exact microStep_again (hrule.trans (phaseWrite_of_end next exit accepted k (hblk ▸ hpos)))
  · have ho := hrule.trans (phaseWrite_of_rest next exit accepted k (hblk ▸ hpos))
    rw [hblk] at ho
    obtain ⟨herr, hnone, hsome⟩ := microStep_offer ho hblk hw
    exact ⟨herr, hnone, fun n hn h => hafter n ▸ hsome n hn h⟩

/-- Settles O42: the five phases are `phaseWrite` of their characters; only TX_ADDRESS and TX_PDU touch the
LRC. -/
theorem asciiTransmitPhases : Obligations.AsciiTransmitPhases := by
  intro s t k chars after hm hd hphase offering
  have hsame := discard_sampled_same hd
  have hrule {x : St} {phase : Nat → State → StepAnswer × State} (hst : s.blk.st = x)
      (hphase : asciiTxRule s.now x = some phase) : stepState s.now s.sampled = phase k t := by
    rw [stepState_sampled_asciiTx hm (hst ▸ hphase), stepTransmit_of_count _ _ phase hd]
  rcases hphase with ⟨hst, rfl, rfl⟩ | ⟨hst, rfl, rfl⟩ | ⟨hst, rfl, rfl⟩ | ⟨hst, rfl, rfl⟩ | ⟨hst, rfl, rfl⟩
  case inr.inr.inl =>
    have hoffering : offering = t.draw := if_pos hst
    have ho := hrule hst rfl
    simp only [asciiTxPdu, hsame.pdu] at ho
    rw [hoffering]
    exact microStep_phaseWrite ho hsame.blk (by simp [hst]) (by simp [hst])
  all_goals
    have hoffering : offering = t := if_neg (by simp [hst])
    have ho := hrule hst rfl
    rw [hoffering]
  case inl => exact microStep_phaseWrite ho hsame.blk (by simp [hst]) (by simp [hst, noMore])
  case inr.inl =>
    rw [asciiTxAddress, hsame.blk] at ho
    exact microStep_phaseWrite ho hsame.blk (by simp [hst, lrcUpdate]) (by simp [hst, noMore])
  case inr.inr.inr.inl =>
    rw [asciiTxChecksum, hsame.blk] at ho
    exact microStep_phaseWrite ho hsame.blk (by simp [hst]) (by simp [hst, noMore])
  case inr.inr.inr.inr =>
    exact microStep_phaseWrite ho hsame.blk (by simp [hst]) (by simp [hst, noMore])

end Sys2Proof.Machine
end

section
/-! PROOF of O32 and O43: what a transmission puts on the wire (42_rtu_engine.md R267, 43_ascii_engine.md R324).
What is on the wire and what is left to write together stay the same through every micro-step of the
transmission: an offer moves bytes from the one to the other, and the end of a phase moves none. -/

namespace Sys2Proof.Machine

/-! ### The wire -/

theorem wire_of_setEnv_calls {s t : State} {c : Call} (h : t.env.calls = s.env.calls ++ [c])
    (hc : c.wire = []) : t.env.wire = s.env.wire := by
  simp [Env.wire, h, hc]

theorem sampled_wire (s : State) : s.sampled.env.wire = s.env.wire :=
  wire_of_setEnv_calls (ticks_calls s) rfl

theorem discard_wire {s t : State} {r : DiscardResult} (h : Machine.discard s = (r, t)) :
    t.env.wire = s.env.wire := by
  rcases ha : rxAnswer s.cfg.discardMax s with ⟨a, u⟩
  rw [Machine.discard, ha] at h
  cases h
  exact wire_of_setEnv_calls (congrArg (· ++ [_]) (rxAnswer_calls ha)) rfl

theorem writeComplete_wire {s t : State} {b : Bool} (h : writeComplete s = (b, t)) :
    t.env.wire = s.env.wire := by
  unfold writeComplete at h
  split at h <;> cases h <;> exact wire_of_setEnv_calls rfl rfl

/-! ### Rules that keep the bytes of a transmission together -/

/-- While the transmission goes on and the answer is no refusal, what is on the wire and what `left` says is
left to write stay together what they were. -/
def Carries (left : Block → List Byte) (s : State) (r : StepAnswer × State) : Prop :=
  r.1 ≠ .refused → r.2.blk.st.txActive = true →
    r.2.env.wire ++ left r.2.blk = s.env.wire ++ left s.blk

section
variable {left : Block → List Byte}

/-- The end of a phase: nothing is written, and the next phase has the same bytes left. -/
theorem carries_of_exit {s : State} {b : Block} (h : left b = left s.blk) (a : StepAnswer) :
    Carries left s (a, s.setBlk b) := fun _ _ => by
  rw [State.setBlk_blk, h]; rfl

/-- Bytes accepted go from the front of what is left to the end of the wire. -/
theorem offer_carries {seq : List Byte} {after : Nat → Block → Block} (k : Nat) {s : State}
    (h : ∀ n, 0 < n → n ≤ seq.length → seq.take n ++ left (after n s.blk) = left s.blk) :
    Carries left s (offer seq after k s) := by
  rcases hw : write seq s with ⟨r, t⟩
  have hsame := write_same hw
  intro hok hact
  cases r with
  | outOfRange => rw [offer_of_outOfRange after k hw] at hok; exact absurd rfl hok
  | err => rw [offer_of_err after k hw] at hact; cases hact
  | accepted n =>
    obtain ⟨hn, hwire⟩ := write_accepted_wire hw
    rcases n.eq_zero_or_pos with rfl | hpos
    · rw [offer_of_nothing after k hw, hwire, hsame.blk, List.take_zero, List.append_nil]
    · rw [offer_of_accepted after k hpos hw, hsame.blk, State.setBlk_blk, State.setBlk_env, hwire,
        List.append_assoc, h n hpos hn]

/-- The drain writes nothing. -/
theorem txDrain_carries {x : St} (hx : x.txActive = false) (now k : Nat) (s : State) :
    Carries left s (txDrain x now k s) := by
  intro hok hact
  rcases hw : writeComplete s with ⟨_ | _, t⟩
  · rw [txDrain_of_pending x now k hw, writeComplete_wire hw, (writeComplete_same hw).blk]
  · rw [txDrain_of_complete x now k hw] at hact
    exact absurd hact (by simp [hx])

/-- A character phase, `rest` being what the phases after it write. -/
theorem phaseWrite_carries {seq rest : List Byte} {next : St} {exit : Block → Block}
    {accepted : Nat → Block → Block} (k : Nat) {s : State}
    (hleft : left s.blk = seq.drop s.blk.txPos ++ rest)
    (hexit : s.blk.txPos = seq.length → left { exit s.blk with txPos := 0, st := next } = rest)
    (haccepted : ∀ n, left { accepted n s.blk with txPos := s.blk.txPos + n }
      = seq.drop (s.blk.txPos + n) ++ rest) :
    Carries left s (phaseWrite seq next exit accepted k s) := by
  by_cases hpos : s.blk.txPos = seq.length
  · rw [phaseWrite_of_end next exit accepted k hpos]
    exact carries_of_exit (by rw [hexit hpos, hleft, hpos, List.drop_length, List.nil_append]) _
  · rw [phaseWrite_of_rest next exit accepted k hpos]
    refine offer_carries k fun n _ _ => ?_
    rw [haccepted, hleft, ← List.append_assoc, ← List.drop_drop, List.take_append_drop]

/-- The echo discard writes nothing and its abort ends the transmission. -/
theorem stepTransmit_carries {phase : Nat → State → StepAnswer × State} {x : St}
    (hx : x.txActive = false) (now : Nat) {s : State}
    (h : ∀ k t, SameBlock s t → Carries left t (phase k t)) :
    Carries left s (stepTransmit x now phase s) := by
  rcases hd : Machine.discard s with ⟨r, t⟩
  intro hok hact
  cases r with
  | outOfRange => simp [stepTransmit, hd] at hok
  | err =>
    rw [stepTransmit_of_err x now phase hd] at hact
    exact absurd hact (by simp [hx])
  | count k =>
    rw [stepTransmit_of_count x now phase hd] at hok hact ⊢
    rw [h k t (discard_same hd) hok hact, discard_wire hd, (discard_same hd).blk]

/-- A micro-step that is not refused carries what its rule carries, if what is left does not depend on the
last status reported. -/
theorem microStep_carries {s : State} (hstat : ∀ b st, left { b with stat := st } = left b)
    (h : Carries left s.sampled (stepState s.now s.sampled)) : Carries left s (microStep s) := by
  rw [microStep_eq]
  rcases hr : stepState s.now s.sampled with ⟨a, t⟩
  rw [hr] at h
  intro hok hact
  have hsum (ha : a ≠ .refused) (hact : t.blk.st.txActive = true) :
      (statusUpdate t).env.wire ++ left (statusUpdate t).blk = s.env.wire ++ left s.blk := by
    obtain ⟨_, _, ht⟩ := statusUpdate_only t
    have hblk : left (statusUpdate t).blk = left t.blk := by rw [ht]; exact hstat _ _
    rw [statusUpdate_wire, hblk, h ha hact, sampled_wire, (sampled_same s).blk]
  cases a with
  | again => exact hsum (by simp) (by simpa using hact)
  | done d => exact hsum (by simp) (by simpa using hact)
  | refused => exact absurd rfl hok

end

/-! ### What a binary transmission has left -/

/-- `rtuRemaining` as a function of the PDU and the block. -/
def rtuLeft (pdu : List Byte) (b : Block) : List Byte :=
  match b.st with
  | .txAddress => b.faddr :: (pdu ++ crcBytes (crcUpdate b.crc (b.faddr :: pdu)))
  | .txPdu => pdu.drop b.txPos ++ crcBytes (crcUpdate b.crc (pdu.drop b.txPos))
  | .txChecksum => (crcBytes b.crc).drop b.txPos
  | _ => []

theorem rtuRemaining_eq (s : State) : rtuRemaining s = rtuLeft s.pdu s.blk := by
  cases h : s.blk.st <;> simp [rtuRemaining, rtuLeft, h]

/-- The cells offered in TX_PDU are the rest of the PDU. -/
theorem State.cells_eq_pdu_drop (s : State) (i : Nat) : s.cells i s.blk.len = s.pdu.drop i := by
  refine List.ext_getElem (by simp [State.cells_length, State.pdu_length]) fun k _ _ => ?_
  simp [State.pdu, State.cells]

section
variable (k : Nat) {s : State}

theorem rtuTxAddress_carries (hst : s.blk.st = .txAddress) :
    Carries (rtuLeft s.pdu) s (rtuTxAddress k s) := by
  rw [rtuTxAddress_eq]
  refine offer_carries k fun n hpos hn => ?_
  obtain rfl : n = 1 := by simp at hn; omega
  simp [rtuLeft, hst, crcUpdate]

theorem rtuTxPdu_carries (hst : s.blk.st = .txPdu) {pdu : List Byte} (hpdu : s.pdu = pdu) :
    Carries (rtuLeft pdu) s (rtuTxPdu k s) := by
  by_cases hpos : s.blk.txPos = s.blk.len
  · rw [rtuTxPdu_of_end k hpos]
    refine carries_of_exit ?_ _
    have hlen : s.blk.txPos = pdu.length := by rw [hpos, ← hpdu, s.pdu_length]
    simp [rtuLeft, hst, hlen, crcUpdate]
  · rw [rtuTxPdu_of_rest k hpos, s.cells_eq_pdu_drop, hpdu]
    have hcarry : Carries (rtuLeft pdu) s.draw (offer (pdu.drop s.blk.txPos)
        (fun w b => { b with
          crc := crcUpdate b.crc ((pdu.drop s.blk.txPos).take w), txPos := b.txPos + w }) k s.draw) := by
      refine offer_carries k fun n _ _ => ?_
      have hsplit : (pdu.drop s.blk.txPos).take n ++ pdu.drop (s.blk.txPos + n) = pdu.drop s.blk.txPos := by
        rw [← List.drop_drop, List.take_append_drop]
      simp only [rtuLeft, State.draw_blk, hst]
      rw [← crcUpdate_append, hsplit, ← List.append_assoc, hsplit]
    exact hcarry

theorem rtuTxChecksum_carries (hst : s.blk.st = .txChecksum) (pdu : List Byte) :
    Carries (rtuLeft pdu) s (rtuTxChecksum k s) := by
  by_cases hpos : s.blk.txPos = 2
  · rw [rtuTxChecksum_of_end k hpos]
    exact carries_of_exit (by simp [rtuLeft, hst, hpos, crcBytes]) _
  · rw [rtuTxChecksum_of_rest k hpos]
    refine offer_carries k fun n _ _ => ?_
    simp only [rtuLeft, hst]
    rw [← List.drop_drop, List.take_append_drop]

end

theorem microStep_rtu_carries {s : State} (hm : s.cfg.mode = .rtu) (hact : s.blk.st.txActive = true)
    (hmode : s.blk.st.inMode s.cfg.mode = true) : Carries (rtuLeft s.pdu) s (microStep s) := by
  have hsame := sampled_same s
  refine microStep_carries (fun b st => rfl) ?_
  have hphase {x : St} {phase : Nat → State → StepAnswer × State} (hst : s.blk.st = x)
      (hrule : rtuTxRule s.now x = some phase)
      (h : ∀ k t, t.blk.st = x → t.pdu = s.pdu → Carries (rtuLeft s.pdu) t (phase k t)) :
      Carries (rtuLeft s.pdu) s.sampled (stepState s.now s.sampled) := by
    rw [stepState_sampled_rtuTx hm (hst ▸ hrule)]
    refine stepTransmit_carries rfl s.now fun k t ht => ?_
    have hst' := hsame.trans ht
    exact h k t (by rw [hst'.blk, hst]) hst'.pdu
  cases hst : s.blk.st
  case txAddress => exact hphase hst rfl fun k t hx hpdu => hpdu ▸ rtuTxAddress_carries k hx
  case txPdu => exact hphase hst rfl fun k t hx hpdu => rtuTxPdu_carries k hx hpdu
  case txChecksum => exact hphase hst rfl fun k t hx _ => rtuTxChecksum_carries k hx _
  case txDrain => exact hphase hst rfl fun k t _ _ => txDrain_carries rfl s.now k t
  all_goals simp [hst, hm, St.txActive, St.inMode] at hact hmode

/-! ### What a character transmission has left -/

/-- `asciiRemaining` as a function of the PDU and the block. -/
def asciiLeft (pdu : List Byte) (b : Block) : List Byte :=
  match b.st with
  | .txStart => [0x3A#8].drop b.txPos ++ (hex2 b.faddr ++ (hexAll pdu
      ++ (hex2 (negate8 (lrcUpdate b.lrc (b.faddr :: pdu))) ++ [0x0D#8, 0x0A#8])))
  | .txAddress => (hex2 b.faddr).drop b.txPos ++ (hexAll pdu
      ++ (hex2 (negate8 (lrcUpdate b.lrc (b.faddr :: pdu))) ++ [0x0D#8, 0x0A#8]))
  | .txPdu => (hexAll pdu).drop b.txPos
      ++ (hex2 (negate8 (lrcUpdate b.lrc (pdu.drop (b.txPos / 2)))) ++ [0x0D#8, 0x0A#8])
  | .txChecksum => (hex2 (negate8 b.lrc)).drop b.txPos ++ [0x0D#8, 0x0A#8]
  | .txEnd => [0x0D#8, 0x0A#8].drop b.txPos ++ []
  | _ => []

theorem asciiRemaining_eq (s : State) : asciiRemaining s = asciiLeft s.pdu s.blk := by
  cases h : s.blk.st <;> simp [asciiRemaining, asciiLeft, h]

section
variable (k : Nat) {s : State}

theorem asciiTxStart_carries (hst : s.blk.st = .txStart) (pdu : List Byte) :
    Carries (asciiLeft pdu) s (asciiTxStart k s) := by
  refine phaseWrite_carries k (by rw [asciiLeft, hst]) ?_ fun n => ?_
  · intro _; simp [asciiLeft]
  · simp [asciiLeft, noMore, hst]

theorem asciiTxAddress_carries (hst : s.blk.st = .txAddress) (pdu : List Byte) :
    Carries (asciiLeft pdu) s (asciiTxAddress k s) := by
  refine phaseWrite_carries k (by rw [asciiLeft, hst]) ?_ fun n => ?_
  · intro _; simp [asciiLeft, lrcUpdate]
  · simp [asciiLeft, noMore, hst]

/-- The bytes whose second digit has been accepted are summed, the others are still to be. -/
theorem lrcUpdate_drop_half (l : Byte) (pdu : List Byte) (i n : Nat) :
    lrcUpdate (lrcUpdate l ((pdu.drop (i / 2)).take ((i + n) / 2 - i / 2))) (pdu.drop ((i + n) / 2))
      = lrcUpdate l (pdu.drop (i / 2)) := by
  have hle : i / 2 ≤ (i + n) / 2 := Nat.div_le_div_right (Nat.le_add_right i n)
  have hdrop : pdu.drop ((i + n) / 2) = (pdu.drop (i / 2)).drop ((i + n) / 2 - i / 2) := by
    rw [List.drop_drop, Nat.add_sub_cancel' hle]
  rw [← lrcUpdate_append, hdrop, List.take_append_drop]

theorem asciiTxPdu_carries (hst : s.blk.st = .txPdu) {pdu : List Byte} (hpdu : s.pdu = pdu) :
    Carries (asciiLeft pdu) s (asciiTxPdu k s) := by
  rw [asciiTxPdu, hpdu]
  suffices h : Carries (asciiLeft pdu) s.draw (phaseWrite (hexAll pdu) .txChecksum id _ k s.draw) from h
  refine phaseWrite_carries k (by rw [asciiLeft, State.draw_blk, hst]) ?_ fun n => ?_
  · intro hpos
    have hhalf : s.blk.txPos / 2 = pdu.length := by
      rw [State.draw_blk, hexAll_length] at hpos; omega
    simp [asciiLeft, hhalf, lrcUpdate]
  · simp [asciiLeft, hst, lrcUpdate_drop_half]

theorem asciiTxChecksum_carries (hst : s.blk.st = .txChecksum) (pdu : List Byte) :
    Carries (asciiLeft pdu) s (asciiTxChecksum k s) := by
  refine phaseWrite_carries k (by rw [asciiLeft, hst]) ?_ fun n => ?_
  · intro _; simp [asciiLeft]
  · simp [asciiLeft, noMore, hst]

theorem asciiTxEnd_carries (hst : s.blk.st = .txEnd) (pdu : List Byte) :
    Carries (asciiLeft pdu) s (asciiTxEnd k s) := by
  refine phaseWrite_carries k (by rw [asciiLeft, hst]) ?_ fun n => ?_
  · intro _; simp [asciiLeft]
  · simp [asciiLeft, noMore, hst]

end

theorem microStep_ascii_carries {s : State} (hm : s.cfg.mode = .ascii) (hact : s.blk.st.txActive = true) :
    Carries (asciiLeft s.pdu) s (microStep s) := by
  have hsame := sampled_same s
  refine microStep_carries (fun b st => rfl) ?_
  have hphase {x : St} {phase : Nat → State → StepAnswer × State} (hst : s.blk.st = x)
      (hrule : asciiTxRule s.now x = some phase)
      (h : ∀ k t, t.blk.st = x → t.pdu = s.pdu → Carries (asciiLeft s.pdu) t (phase k t)) :
      Carries (asciiLeft s.pdu) s.sampled (stepState s.now s.sampled) := by
    rw [stepState_sampled_asciiTx hm (hst ▸ hrule)]
    refine stepTransmit_carries rfl s.now fun k t ht => ?_
    have hst' := hsame.trans ht
    exact h k t (by rw [hst'.blk, hst]) hst'.pdu
  cases hst : s.blk.st
  case txStart => exact hphase hst rfl fun k t hx _ => asciiTxStart_carries k hx _
  case txAddress => exact hphase hst rfl fun k t hx _ => asciiTxAddress_carries k hx _
  case txPdu => exact hphase hst rfl fun k t hx hpdu => asciiTxPdu_carries k hx hpdu
  case txChecksum => exact hphase hst rfl fun k t hx _ => asciiTxChecksum_carries k hx _
  case txEnd => exact hphase hst rfl fun k t hx _ => asciiTxEnd_carries k hx _
  case txDrain => exact hphase hst rfl fun k t _ _ => txDrain_carries rfl s.now k t
  all_goals simp [hst, St.txActive] at hact

/-! ### The frame of a transmission, micro-step by micro-step -/

/-- What a transmission leaves alone: the mode, the frame to send, and a refusal mark. -/
structure SameFrame (s t : State) : Prop where
  cfg : t.cfg = s.cfg
  faddr : t.blk.faddr = s.blk.faddr
  len : t.blk.len = s.blk.len
  buf : t.blk.buf = s.blk.buf
  refused : s.blk.refused = true → t.blk.refused = true
  inMode : s.blk.st.inMode s.cfg.mode = true → t.blk.st.inMode s.cfg.mode = true

theorem RuleUpdate.sameFrame {now : Nat} {s t : State} (h : RuleUpdate s.cfg now s.blk t.blk)
    (hcfg : t.cfg = s.cfg) (hact : s.blk.st.txActive = true) : SameFrame s t := by
  have hne {x : St} (hx : x.txActive = false) : s.blk.st ≠ x := by
    rintro hst; simp [hst, hx] at hact
  generalize hb : t.blk = b at h
  cases h
  case same => exact ⟨hcfg, by rw [hb], by rw [hb], by rw [hb], by rw [hb]; exact id, by rw [hb]; exact id⟩
  case release hmode =>
    exact ⟨hcfg, by rw [hb], by rw [hb], by rw [hb], by rw [hb]; exact id, by rw [hb]; exact fun _ => hmode⟩
  case fatal =>
    exact ⟨hcfg, by rw [hb], by rw [hb], by rw [hb], by rw [hb]; exact id, by rw [hb]; exact fun _ => rfl⟩
  case transmit hmode _ =>
    exact ⟨hcfg, by rw [hb], by rw [hb], by rw [hb], by rw [hb]; exact id, by rw [hb]; exact fun _ => hmode⟩
  case rest htx _ _ _ _ _ => exact absurd hact (by simp [htx])
  case colon htx _ => exact absurd hact (by simp [htx])
  all_goals exact absurd ‹s.blk.st = _› (hne rfl)

theorem statusUpdate_sameFrame (s : State) : SameFrame s (statusUpdate s) := by
  obtain ⟨_, _, h⟩ := statusUpdate_only s
  rw [h]; exact ⟨rfl, rfl, rfl, rfl, id, id⟩

theorem SameFrame.trans {s t u : State} (h : SameFrame s t) (k : SameFrame t u) : SameFrame s u :=
  ⟨k.cfg.trans h.cfg, k.faddr.trans h.faddr, k.len.trans h.len, k.buf.trans h.buf,
    k.refused ∘ h.refused, fun hm => h.cfg ▸ k.inMode (by rw [h.cfg]; exact h.inMode hm)⟩

theorem microStep_sameFrame {s : State} (hact : s.blk.st.txActive = true) :
    SameFrame s (microStep s).2 := by
  have hsame := sampled_same s
  obtain ⟨r, hr, ⟨-, h⟩ | ⟨-, h⟩⟩ := microStep_effect s <;> rw [h]
  · exact ⟨rfl, rfl, rfl, rfl, fun _ => rfl, id⟩
  · cases hr with
    | rule hr =>
      have hblk := hr.blk
      rw [hsame.cfg, hsame.blk] at hblk
      exact (hblk.sameFrame (hr.cfg.trans hsame.cfg) hact).trans (statusUpdate_sameFrame r.2)
    | frame hu hst =>
      rw [hsame.blk] at hst
      rcases hst with hst | hst <;> simp [hst, St.txActive] at hact

theorem microStep_refused_mark {s : State} (h : (microStep s).1 = .refused) :
    (microStep s).2.blk.refused = true := by
  obtain ⟨r, -, ⟨-, hr⟩ | ⟨hne, hr⟩⟩ := microStep_effect s <;> rw [hr] at h ⊢
  · rfl
  · exact absurd h hne

/-- The frame a state sends reads the same later, all its cells being written (U4). -/
theorem SameFrame.pdu {s t : State} (h : SameFrame s t) (hw : Memory.written s.blk.buf s.blk.len = true) :
    t.pdu = s.pdu := by
  rw [State.pdu, State.pdu, h.len]
  exact State.cells_congr s t 0 _ h.buf hw

/-- Over any number of micro-steps of a transmission in which nothing is refused, what is on the wire and
what `left` says is left stay together what they were. -/
theorem microSteps_carry {left : List Byte → Block → List Byte} {m : Mode}
    (hstep : ∀ s, s.cfg.mode = m → s.blk.st.txActive = true → s.blk.st.inMode s.cfg.mode = true →
      Carries (left s.pdu) s (microStep s)) (n : Nat) {s : State} (hm : s.cfg.mode = m)
    (hmode : s.blk.st.inMode s.cfg.mode = true) (hw : Memory.written s.blk.buf s.blk.len = true)
    (hact : ∀ k, k ≤ n → (microSteps k s).blk.st.txActive = true) (hsafe : (microSteps n s).Safe) :
    SameFrame s (microSteps n s)
      ∧ (microSteps n s).env.wire ++ left (microSteps n s).pdu (microSteps n s).blk
        = s.env.wire ++ left s.pdu s.blk := by
  induction n generalizing s with
  | zero => exact ⟨⟨rfl, rfl, rfl, rfl, id, id⟩, rfl⟩
  | succ n ih =>
    have hact0 : s.blk.st.txActive = true := hact 0 (Nat.zero_le _)
    have hframe := microStep_sameFrame hact0
    have hact1 : ∀ k, k ≤ n → (microSteps k (microStep s).2).blk.st.txActive = true :=
      fun k hk => hact (k + 1) (by omega)
    obtain ⟨hrest, hsum⟩ := ih (by rw [hframe.cfg]; exact hm) (by rw [hframe.cfg]; exact hframe.inMode hmode)
      (by rw [hframe.buf, hframe.len]; exact hw) hact1 hsafe
    refine ⟨hframe.trans hrest, ?_⟩
    have hok : (microStep s).1 ≠ .refused := fun h => by
      have hmark := hrest.refused (microStep_refused_mark h)
      exact absurd (hsafe.symm.trans hmark) Bool.false_ne_true
    rw [hframe.pdu hw] at hsum
    exact hsum.trans (hstep s hm hact0 hmode hok (hact1 0 (Nat.zero_le _)))

/-! ### The obligations -/

/-- SEND in QUEUE sets the frame up and writes nothing. -/
theorem startTransmit_wire (s : State) : (startTransmit s).env.wire = s.env.wire := by
  cases hm : s.cfg.mode with
  | rtu => rw [startTransmit_rtu hm]; exact wire_of_setEnv_calls rfl rfl
  | ascii => rw [startTransmit_ascii hm]; exact wire_of_setEnv_calls rfl rfl

theorem exec_send_of_queue {s t : State} (hst : s.blk.st = .queue) (hlen : s.blk.len < s.cfg.bufferMax)
    (h : exec .send s = .next t) : t = statusUpdate (startTransmit s) := by
  rw [exec_send, sendFrame_of_queue hst hlen,
    endCommand_of_st_ne (hst ▸ startTransmit_st_ne s)] at h
  exact (Host.Outcome.next.inj h).symm

theorem startTransmit_sameFrame (s : State) : SameFrame s (startTransmit s) := by
  cases hm : s.cfg.mode with
  | rtu => rw [startTransmit_rtu hm]; exact ⟨rfl, rfl, rfl, rfl, id, fun _ => rfl⟩
  | ascii => rw [startTransmit_ascii hm]; exact ⟨rfl, rfl, rfl, rfl, id, fun _ => by rw [hm]; rfl⟩

/-- The transmission that SEND starts, in either mode: `bytes` is what is left to write at its start. -/
theorem transmission_carries {left : List Byte → Block → List Byte} {m : Mode}
    (hstat : ∀ pdu b st, left pdu { b with stat := st } = left pdu b)
    (hstep : ∀ s, s.cfg.mode = m → s.blk.st.txActive = true → s.blk.st.inMode s.cfg.mode = true →
      Carries (left s.pdu) s (microStep s))
    (hdrain : ∀ pdu b, b.st = .txDrain → left pdu b = []) {s t : State} (n : Nat) (hm : s.cfg.mode = m)
    (hst : s.blk.st = .queue) (hlen : s.blk.len < s.cfg.bufferMax)
    (hw : Memory.written s.blk.buf s.blk.len = true) (ht : exec .send s = .next t)
    (hact : ∀ k, k ≤ n → (microSteps k t).blk.st.txActive = true) (hsafe : (microSteps n t).Safe) :
    let u := microSteps n t
    u.env.wire ++ left u.pdu u.blk = s.env.wire ++ left s.pdu (startTransmit s).blk
      ∧ (u.blk.st = .txDrain → u.env.wire = s.env.wire ++ left s.pdu (startTransmit s).blk) := by
  obtain rfl := exec_send_of_queue hst hlen ht
  have hframe := (startTransmit_sameFrame s).trans (statusUpdate_sameFrame _)
  have hmode : s.blk.st.inMode s.cfg.mode = true := by rw [hst]; rfl
  obtain ⟨-, hsum⟩ := microSteps_carry hstep n (by rw [hframe.cfg]; exact hm)
    (by rw [hframe.cfg]; exact hframe.inMode hmode) (by rw [hframe.buf, hframe.len]; exact hw) hact hsafe
  have hleft : left s.pdu (statusUpdate (startTransmit s)).blk = left s.pdu (startTransmit s).blk := by
    obtain ⟨_, _, h⟩ := statusUpdate_only (startTransmit s)
    rw [h]; exact hstat _ _ _
  rw [hframe.pdu hw, hleft, statusUpdate_wire, startTransmit_wire] at hsum
  intro u
  exact ⟨hsum, fun hu => by rw [← hsum, hdrain _ _ hu, List.append_nil]⟩

/-- Settles O32: what SEND has left to write is the frame, and in TX_DRAIN nothing is left. -/
theorem rtuTransmissionBytes : Obligations.RtuTransmissionBytes := by
  intro s t n hm hst hlen _ hw ht hact hsafe
  have hbytes : rtuLeft s.pdu (startTransmit s).blk = rtuBytes s.blk.faddr s.pdu := by
    rw [startTransmit_rtu hm]; rfl
  rw [rtuRemaining_eq, ← hbytes]
  exact transmission_carries (fun _ _ _ => rfl) (fun _ => microStep_rtu_carries)
    (fun _ _ h => by rw [rtuLeft, h]) n hm hst hlen hw ht hact hsafe

/-- Settles O43, as O32 is settled. -/
theorem asciiTransmissionBytes : Obligations.AsciiTransmissionBytes := by
  intro s t n hm hst hlen _ hw ht hact hsafe
  have hbytes : asciiLeft s.pdu (startTransmit s).blk = asciiBytes s.blk.faddr s.pdu := by
    rw [startTransmit_ascii hm]; simp [asciiLeft, asciiBytes, lrc]
  rw [asciiRemaining_eq, ← hbytes]
  exact transmission_carries (fun _ _ _ => rfl) (fun _ hm hact _ => microStep_ascii_carries hm hact)
    (fun _ _ h => by rw [asciiLeft, h]) n hm hst hlen hw ht hact hsafe

end Sys2Proof.Machine
end

section
/-! PROOF of O8, O33, O34 and O44: characters and frames that arrive on the receive stream (30_encoding.md R110
to R115, 42_rtu_engine.md and 43_ascii_engine.md, reception). A row of a byte is a micro-step (O34); a whole
frame is followed byte by byte, `Reaches` saying which block the machine has come to. -/

namespace Sys2Proof.Machine

/-! ### Rows as micro-steps -/

/-- Settles O34: `arrive` and `silence` are micro-steps outside EXCEPTION, and queue the bytes in it. -/
theorem arrivalsAreMicroSteps : Obligations.ArrivalsAreMicroSteps := by
  refine ⟨fun s c => ⟨fun hs => ?_, fun hs => ⟨?_, fun i hi => ?_⟩⟩, fun s after i hafter => ?_⟩
  · rw [exec_classify, arrive_of_ne_exception c hs]; rfl
  · rw [exec_classify, arrive_of_exception hs]; rfl
  · cases i <;> simp [Instr.space] at hi
    case rtuFrame => exact congrArg Host.Outcome.next (silence_arriveAll_of_exception _ hs)
    case asciiFrame => exact congrArg Host.Outcome.next (arriveAll_of_exception _ hs)
  · rw [foldl_exec_classify] at hafter
    subst hafter
    refine ⟨fun hi => ?_, fun hi hr hd => ?_, fun hi hst => ?_⟩ <;>
      cases i <;> simp only [Instr.space, reduceCtorEq] at hi
    · rfl
    · exact congrArg Host.Outcome.next (silence_of_other hr hd)
    · exact congrArg Host.Outcome.next (silence_of_waiting hst)

/-! ### The LRC of a frame -/

theorem lrcUpdate_append_singleton_eq_zero_iff (a : Byte) (s : List Byte) (l : Byte) :
    lrcUpdate a (s ++ [l]) = 0#8 ↔ l = negate8 (lrcUpdate a s) := by
  rw [lrcUpdate_append, lrcUpdate, lrcUpdate, negate8]
  generalize lrcUpdate a s = x
  constructor <;> intro h <;> bv_omega

/-- Settles O8: the chunk law leaves one byte, which must cancel the sum. -/
theorem lrcAppend : Obligations.LrcAppend := lrcUpdate_append_singleton_eq_zero_iff 0#8

/-! ### The block a reception has come to -/

/-- From `s` the machine has come to `t`, whose block is `b` but for the timing reference and the status
reported; nothing else of the machine has changed. -/
structure Reaches (s : State) (b : Block) (t : State) : Prop where
  blk : t.blk = { b with tRef := t.blk.tRef, stat := t.blk.stat }
  cfg : t.cfg = s.cfg
  resetCfg : t.resetCfg = s.resetCfg
  result : t.result = s.result
  draws : t.draws = s.draws
  polling : t.polling = s.polling
  callback : t.env.callback = s.env.callback
  status : t.blk.StatusOk t.cfg

theorem Reaches.refl {s : State} (h : s.blk.StatusOk s.cfg) : Reaches s s.blk s :=
  ⟨rfl, rfl, rfl, rfl, rfl, rfl, rfl, h⟩

theorem statusUpdate_statusOk {s : State} (h : s.cfg.diag = false → s.blk.stat = (false, false)) :
    (statusUpdate s).blk.StatusOk (statusUpdate s).cfg := by
  unfold statusUpdate
  split_ifs with hd
  · simp [Block.StatusOk, hd.1]
  · cases hdiag : s.cfg.diag with
    | false => simp [Block.StatusOk, h hdiag, hdiag]
    | true => simpa [Block.StatusOk, hdiag, eq_comm] using hd

/-- A micro-step that leaves the block `c` after calls, `b'` but for the reference and the status. -/
theorem Reaches.step {s t u : State} {b b' c : Block} (h : Reaches s b t) (hu : SameBlock t u)
    (hc : c.stat = t.blk.stat) (hb : b' = { c with tRef := b'.tRef, stat := b'.stat }) :
    Reaches s b' (statusUpdate (u.setBlk c)) := by
  obtain ⟨stat, calls, hs⟩ := statusUpdate_only (u.setBlk c)
  have hok : (statusUpdate (u.setBlk c)).blk.StatusOk (statusUpdate (u.setBlk c)).cfg := by
    refine statusUpdate_statusOk fun hd => ?_
    have hstat := h.status
    rw [State.setBlk_cfg, hu.cfg] at hd
    rw [Block.StatusOk, hd] at hstat
    exact hc.trans hstat
  rw [hs] at hok ⊢
  exact ⟨by rw [hb]; rfl, hu.cfg.trans h.cfg, hu.resetCfg.trans h.resetCfg, hu.result.trans h.result,
    hu.draws.trans h.draws, hu.polling.trans h.polling, hu.callback.trans h.callback, hok⟩

theorem Reaches.st {s t : State} {b : Block} (h : Reaches s b t) : t.blk.st = b.st := by rw [h.blk]

theorem Reaches.of_arrive {s t u : State} {b b' c : Block} {v : Byte} {a : StepAnswer} (h : Reaches s b t)
    (hne : b.st ≠ .exception) (hstep : microStep (t.prescribe (.bytes [v])) = (a, statusUpdate (u.setBlk c)))
    (hu : SameBlock t u) (hc : c.stat = t.blk.stat)
    (hb : b' = { c with tRef := b'.tRef, stat := b'.stat }) : Reaches s b' (arrive v t) := by
  rw [arrive_of_ne_exception v (h.st ▸ hne), hstep]
  exact h.step hu hc hb

/-! ### What the stream answers where a byte arrives -/

theorem sampled_rxScript (s : State) : s.sampled.env.rxScript = s.env.rxScript := by
  obtain ⟨_, _, h⟩ := sampled_only s
  rw [h]; rfl

theorem prescribe_sameBlock (s : State) (a : RxAnswer) : SameBlock s (s.prescribe a) :=
  ⟨rfl, rfl, rfl, rfl, rfl, rfl, rfl, rfl⟩

theorem read1_prescribe (s : State) (b : Byte) :
    ∃ u, read1 (s.prescribe (.bytes [b])).sampled = (.byte b, u) ∧ SameBlock s u := by
  have hr : read1 (s.prescribe (.bytes [b])).sampled
      = (.byte b, (read1 (s.prescribe (.bytes [b])).sampled).2) := by
    have hscript := sampled_rxScript (s.prescribe (.bytes [b]))
    simp only [State.prescribe, State.setEnv_env] at hscript
    simp [read1, rxAnswer, State.prescribe, hscript]
  exact ⟨_, hr, (prescribe_sameBlock s _).trans (read1_sampled_same hr)⟩

theorem discard_prescribe {s : State} (b : Byte) (h : 1 ≤ s.cfg.bufferMax) :
    ∃ u, Machine.discard (s.prescribe (.bytes [b])).sampled = (.count 1, u) ∧ SameBlock s u := by
  have hr : Machine.discard (s.prescribe (.bytes [b])).sampled
      = (.count 1, (Machine.discard (s.prescribe (.bytes [b])).sampled).2) := by
    have hscript := sampled_rxScript (s.prescribe (.bytes [b]))
    have hcfg : (s.prescribe (.bytes [b])).sampled.cfg = s.cfg := (sampled_same _).cfg
    simp only [State.prescribe, State.setEnv_env] at hscript
    simp only [State.prescribe] at hcfg
    simp [Machine.discard, rxAnswer, State.prescribe, hscript, hcfg, Config.discardMax, h]
  exact ⟨_, hr, (prescribe_sameBlock s _).trans (discard_sampled_same hr)⟩

/-! ### A binary frame, byte by byte -/

section
variable {s t : State} {b : Block} (h : Reaches s b t) (hm : s.cfg.mode = .rtu) (v : Byte)
include h hm

theorem Reaches.rtu_address (hst : b.st = .idle) (ha : accept b.station v = true) :
    Reaches s { b with
      faddr := v, crc := crcByte 0xFFFF#16 v, rxN := 0, gap := false, st := .receive } (arrive v t) := by
  obtain ⟨u, hr, hu⟩ := read1_prescribe t v
  have hrule := stepState_sampled_rtuIdle (s := t.prescribe (.bytes [v])) (h.cfg ▸ hm) (h.st.trans hst)
  have ha' : accept u.blk.station v = true := by rw [hu.blk, h.blk]; exact ha
  exact h.of_arrive (by simp [hst]) (microStep_again (hrule.trans (rtuIdle_of_accepted _ hr ha'))) hu
    (by rw [hu.blk]) (by rw [hu.blk, h.blk])

theorem Reaches.rtu_otherAddress (hst : b.st = .idle) (ha : ¬ accept b.station v = true) :
    Reaches s { b with st := .dump } (arrive v t) := by
  obtain ⟨u, hr, hu⟩ := read1_prescribe t v
  have hrule := stepState_sampled_rtuIdle (s := t.prescribe (.bytes [v])) (h.cfg ▸ hm) (h.st.trans hst)
  have ha' : ¬ accept u.blk.station v = true := by rw [hu.blk, h.blk]; exact ha
  exact h.of_arrive (by simp [hst]) (microStep_again (hrule.trans (rtuIdle_of_rejected _ hr ha'))) hu
    (by rw [hu.blk]) (by rw [hu.blk, h.blk])

theorem Reaches.rtu_byte (hst : b.st = .receive) (hgap : b.gap = false) (hroom : b.rxN < s.cfg.bufferMax) :
    Reaches s { b with
      buf := Memory.write b.buf b.rxN v, rxN := b.rxN + 1, crc := crcByte b.crc v } (arrive v t) := by
  obtain ⟨u, hr, hu⟩ := read1_prescribe t v
  have hrule := stepState_sampled_receive (s := t.prescribe (.bytes [v])) (h.cfg ▸ hm) (h.st.trans hst)
  have hgap' : u.blk.gap = false := by rw [hu.blk, h.blk]; exact hgap
  have hroom' : u.blk.rxN < u.cfg.bufferMax := by rw [hu.blk, h.blk, hu.cfg, h.cfg]; exact hroom
  exact h.of_arrive (by simp [hst]) (microStep_again (hrule.trans (rtuReceive_of_stored _ hr hgap' hroom'))) hu
    (by rw [hu.blk]) (by rw [hu.blk, h.blk])

theorem Reaches.rtu_overflow (hst : b.st = .receive) (hfull : s.cfg.bufferMax ≤ b.rxN) :
    Reaches s { b with st := .dump } (arrive v t) := by
  obtain ⟨u, hr, hu⟩ := read1_prescribe t v
  have hrule := stepState_sampled_receive (s := t.prescribe (.bytes [v])) (h.cfg ▸ hm) (h.st.trans hst)
  have hfull' : u.cfg.bufferMax ≤ u.blk.rxN := by rw [hu.blk, h.blk, hu.cfg, h.cfg]; exact hfull
  exact h.of_arrive (by simp [hst]) (microStep_again (hrule.trans (rtuReceive_of_discarded _ hr (.inr hfull'))))
    hu (by rw [hu.blk]) (by rw [hu.blk, h.blk])

theorem Reaches.rtu_dump (hst : b.st = .dump) (hmax : 1 ≤ s.cfg.bufferMax) : Reaches s b (arrive v t) := by
  obtain ⟨u, hd, hu⟩ := discard_prescribe v (h.cfg ▸ hmax)
  have hrule := stepState_sampled_dump (s := t.prescribe (.bytes [v])) (h.cfg ▸ hm) (h.st.trans hst)
  exact h.of_arrive (by simp [hst])
    (microStep_again (hrule.trans (stepSilence_of_bytes _ _ Nat.one_pos hd))) hu
    (by rw [hu.blk]) (by rw [hu.blk, h.blk])

end

section
variable {s : State} (hm : s.cfg.mode = .rtu)
include hm

/-- Bytes for which there is room are stored and summed. -/
theorem Reaches.rtu_bytes (bs : List Byte) {t : State} {b : Block} (h : Reaches s b t)
    (hst : b.st = .receive) (hgap : b.gap = false) (hroom : b.rxN + bs.length ≤ s.cfg.bufferMax) :
    Reaches s { b with
      buf := Memory.writeBytes b.buf b.rxN bs, rxN := b.rxN + bs.length, crc := crcUpdate b.crc bs }
      (arriveAll bs t) := by
  induction bs generalizing t b with
  | nil => exact h
  | cons v bs ih =>
    rw [List.length_cons] at hroom ⊢
    have hb := ih (h.rtu_byte hm v hst hgap (by omega)) hst hgap (by simp only; omega)
    rw [Nat.add_assoc, Nat.add_comm 1] at hb
    exact hb

/-- DUMP discards every byte. -/
theorem Reaches.rtu_dumpAll (bs : List Byte) {t : State} {b : Block} (h : Reaches s b t)
    (hst : b.st = .dump) (hmax : 1 ≤ s.cfg.bufferMax) : Reaches s b (arriveAll bs t) := by
  induction bs generalizing t with
  | nil => exact h
  | cons v bs ih => exact ih (h.rtu_dump hm v hst hmax)

/-- Bytes for which there is no room end in DUMP. -/
theorem Reaches.rtu_bytesOverflow (bs : List Byte) {t : State} {b : Block} (h : Reaches s b t)
    (hst : b.st = .receive) (hgap : b.gap = false) (hmax : 1 ≤ s.cfg.bufferMax)
    (hfull : s.cfg.bufferMax < b.rxN + bs.length) (hn : b.rxN ≤ s.cfg.bufferMax) :
    ∃ buf n crc, Reaches s { b with buf := buf, rxN := n, crc := crc, st := .dump } (arriveAll bs t) := by
  induction bs generalizing t b with
  | nil => rw [List.length_nil] at hfull; omega
  | cons v bs ih =>
    rw [List.length_cons] at hfull
    rcases Nat.lt_or_ge b.rxN s.cfg.bufferMax with hroom | hge
    · have hb := h.rtu_byte hm v hst hgap hroom
      obtain ⟨buf, n, crc, hall⟩ := ih hb hst hgap (by simp only; omega) hroom
      exact ⟨buf, n, crc, hall⟩
    · exact ⟨b.buf, b.rxN, b.crc,
        Reaches.rtu_dumpAll hm bs (h.rtu_overflow hm v hst hge) rfl hmax⟩

end

/-! ### The silence that ends a binary frame -/

/-- `T35` after any timing reference, `T35` has elapsed. -/
theorem elapsed_add {c : Config} {d : Nat} (hd : d < c.tickModulus) (start : Nat) :
    elapsed c start ((start + d) % c.tickModulus) = d := by
  have h : (elapsed c start ((start + d) % c.tickModulus) : Int) = d := by
    rw [elapsed_eq_emod, Int.natCast_emod, Int.emod_sub_emod, Nat.cast_add, add_sub_cancel_left]
    exact Int.emod_eq_of_lt (Int.natCast_nonneg d) (Int.ofNat_lt.2 hd)
  exact Int.ofNat_inj.1 h

theorem now_prescribeSilence (s : State) :
    s.prescribeSilence.now = (s.blk.tRef + s.blk.t35) % s.cfg.tickModulus := rfl

theorem prescribeSilence_sameBlock (s : State) : SameBlock s s.prescribeSilence :=
  ⟨rfl, rfl, rfl, rfl, rfl, rfl, rfl, rfl⟩

theorem rxScript_prescribeSilence (s : State) :
    s.prescribeSilence.sampled.env.rxScript = .bytes [] :: s.env.rxScript := by
  rw [sampled_rxScript]; rfl

theorem read1_prescribeSilence (s : State) :
    ∃ u, read1 s.prescribeSilence.sampled = (.nothing, u) ∧ SameBlock s u := by
  have hr : read1 s.prescribeSilence.sampled = (.nothing, (read1 s.prescribeSilence.sampled).2) := by
    simp [read1, rxAnswer, rxScript_prescribeSilence]
  exact ⟨_, hr, (prescribeSilence_sameBlock s).trans (read1_sampled_same hr)⟩

theorem discard_prescribeSilence (s : State) :
    ∃ u, Machine.discard s.prescribeSilence.sampled = (.count 0, u) ∧ SameBlock s u := by
  have hr : Machine.discard s.prescribeSilence.sampled
      = (.count 0, (Machine.discard s.prescribeSilence.sampled).2) := by
    simp [Machine.discard, rxAnswer, rxScript_prescribeSilence]
  exact ⟨_, hr, (prescribeSilence_sameBlock s).trans (discard_sampled_same hr)⟩

theorem Reaches.elapsed_t35 {s t : State} {b : Block} (h : Reaches s b t) (h35 : b.t35 < s.cfg.tickModulus) :
    elapsed t.cfg t.blk.tRef t.prescribeSilence.now = t.blk.t35 := by
  rw [now_prescribeSilence]
  exact elapsed_add (by rw [h.blk, h.cfg]; exact h35) _

section
variable {s t : State} {b : Block} (h : Reaches s b t) (hm : s.cfg.mode = .rtu)
  (h35 : b.t35 < s.cfg.tickModulus)
include h hm h35

theorem Reaches.rtu_dumpSilence (hst : b.st = .dump) : Reaches s { b with st := .idle } (silence t) := by
  obtain ⟨u, hd, hu⟩ := discard_prescribeSilence t
  have hrule := stepState_sampled_dump (s := t.prescribeSilence) (h.cfg ▸ hm) (h.st.trans hst)
  have hreached : t.prescribeSilence.blk.t35 ≤ elapsed u.cfg u.blk.tRef t.prescribeSilence.now := by
    rw [hu.cfg, hu.blk, h.elapsed_t35 h35]; exact Nat.le_refl _
  rw [silence_of_waiting (.inr (h.st.trans hst)),
    microStep_again (hrule.trans (stepSilence_of_reached _ _ hd hreached))]
  exact h.step hu (by rw [hu.blk]) (by rw [hu.blk, h.blk])

theorem Reaches.rtu_frameSilence (hst : b.st = .receive) :
    ∃ u, SameBlock t u ∧ silence t = statusUpdate (rtuEndOfFrame u) := by
  obtain ⟨u, hr, hu⟩ := read1_prescribeSilence t
  have hrule := stepState_sampled_receive (s := t.prescribeSilence) (h.cfg ▸ hm) (h.st.trans hst)
  have hreached : u.blk.t35 ≤ elapsed u.cfg u.blk.tRef t.prescribeSilence.now := by
    rw [hu.cfg, hu.blk, h.elapsed_t35 h35]
  refine ⟨u, hu, ?_⟩
  rw [silence_of_waiting (.inl (h.st.trans hst)),
    microStep_again (hrule.trans (rtuReceive_of_t35 hr hreached))]

theorem Reaches.rtu_invalidFrame (hst : b.st = .receive) (hbad : b.rxN < 2 ∨ b.crc ≠ 0#16) :
    Reaches s { b with st := .idle } (silence t) := by
  obtain ⟨u, hu, he⟩ := h.rtu_frameSilence hm h35 hst
  have hbad' : u.blk.rxN < 2 ∨ u.blk.crc ≠ 0#16 := by rw [hu.blk, h.blk]; exact hbad
  rw [he, rtuEndOfFrame_of_invalid hbad']
  exact h.step hu (by rw [hu.blk]) (by rw [hu.blk, h.blk])

theorem Reaches.rtu_validFrame (hst : b.st = .receive) (hn : 2 ≤ b.rxN) (hcrc : b.crc = 0#16)
    (hd : s.cfg.dispatcherAttached = false) (hcb : s.NoCallback) :
    Reaches s { b with len := b.rxN - 2, st := .frameReady } (silence t) := by
  obtain ⟨u, hu, he⟩ := h.rtu_frameSilence hm h35 hst
  have hn' : 2 ≤ u.blk.rxN := by rw [hu.blk, h.blk]; exact hn
  have hcrc' : u.blk.crc = 0#16 := by rw [hu.blk, h.blk]; exact hcrc
  have hd' : u.cfg.dispatcherAttached = false := by rw [hu.cfg, h.cfg]; exact hd
  have hcb' : u.env.callback = [] := hu.callback.trans (h.callback.trans hcb)
  rw [he, rtuEndOfFrame_of_valid hn' hcrc', enterFrameReady_of_noCallback (s := u.setLen (u.blk.rxN - 2)) hd' hcb']
  exact h.step (u := u) (c := { u.blk with len := u.blk.rxN - 2, st := .frameReady }) hu
    (by rw [hu.blk]) (by rw [hu.blk, h.blk])

end

/-! ### A binary frame -/

/-- In a state with neither flag set the status reported is as it was in another one. -/
theorem Reaches.stat {s t : State} {b : Block} (h : Reaches s b t) (hs : s.blk.StatusOk s.cfg)
    (hst : b.st.statusPair = s.blk.st.statusPair) : t.blk.stat = s.blk.stat := by
  have ht := h.status
  rw [Block.StatusOk, h.cfg, h.st, hst] at ht
  exact ht.trans hs.symm

theorem rtu_crc_eq_zero_iff (a : Byte) (pdu : List Byte) (lo hi : Byte) :
    crcUpdate (crcByte 0xFFFF#16 a) (pdu ++ [lo, hi]) = 0#16
      ↔ lo = loByte (crc16 (a :: pdu)) ∧ hi = hiByte (crc16 (a :: pdu)) :=
  crcAppend (a :: pdu) lo hi

section
variable {s : State} (hok : s.blk.StatusOk s.cfg) (h35 : s.blk.t35 < s.cfg.tickModulus)
  (hm : s.cfg.mode = .rtu) (hst : s.blk.st = .idle) (a : Byte) (pdu : List Byte) (lo hi : Byte)
include hok h35 hm hst

theorem rtuFrame_other (hmax : 1 ≤ s.cfg.bufferMax)
    (ha : ¬ accept s.blk.station a = true) :
    Reaches s s.blk (silence (arriveAll (a :: (pdu ++ [lo, hi])) s)) := by
  have hdump := (Reaches.refl hok).rtu_otherAddress hm a hst ha
  have hend := (Reaches.rtu_dumpAll hm (pdu ++ [lo, hi]) hdump rfl hmax).rtu_dumpSilence hm h35 rfl
  have hb : ({ s.blk with st := .idle } : Block) = s.blk := by rw [← hst]
  rw [← hb]
  exact hend

theorem rtuFrame_overflow (hmax : 1 ≤ s.cfg.bufferMax)
    (ha : accept s.blk.station a = true) (hfull : s.cfg.bufferMax < pdu.length + 2) :
    ∃ buf n crc,
      Reaches s { s.blk with faddr := a, buf := buf, rxN := n, crc := crc, gap := false, st := .idle }
        (silence (arriveAll (a :: (pdu ++ [lo, hi])) s)) := by
  have haddr := (Reaches.refl hok).rtu_address hm a hst ha
  obtain ⟨buf, n, crc, hdump⟩ := Reaches.rtu_bytesOverflow hm (pdu ++ [lo, hi]) haddr rfl rfl hmax
    (by simpa using hfull) (Nat.zero_le _)
  exact ⟨buf, n, crc, hdump.rtu_dumpSilence hm h35 rfl⟩

/-- A frame there is room for is stored after its address; the silence then ends it. -/
theorem rtuFrame_stored (ha : accept s.blk.station a = true) (hroom : pdu.length + 2 ≤ s.cfg.bufferMax)
    (hd : s.cfg.dispatcherAttached = false) (hcb : s.NoCallback) :
    ∃ x len, Reaches s { s.blk with
        faddr := a, gap := false, st := x, len := len
        buf := Memory.writeBytes s.blk.buf 0 (pdu ++ [lo, hi]), rxN := pdu.length + 2
        crc := crcUpdate (crcByte 0xFFFF#16 a) (pdu ++ [lo, hi]) }
        (silence (arriveAll (a :: (pdu ++ [lo, hi])) s))
      ∧ (lo = loByte (crc16 (a :: pdu)) → hi = hiByte (crc16 (a :: pdu)) →
          x = .frameReady ∧ len = pdu.length)
      ∧ ((lo ≠ loByte (crc16 (a :: pdu)) ∨ hi ≠ hiByte (crc16 (a :: pdu))) →
          x = .idle ∧ len = s.blk.len) := by
  have haddr := (Reaches.refl hok).rtu_address hm a hst ha
  have hall := Reaches.rtu_bytes hm (pdu ++ [lo, hi]) haddr rfl rfl (by simpa using hroom)
  rw [List.length_append, Nat.zero_add] at hall
  have hcrc := rtu_crc_eq_zero_iff a pdu lo hi
  by_cases hz : crcUpdate (crcByte 0xFFFF#16 a) (pdu ++ [lo, hi]) = 0#16
  · have hend := hall.rtu_validFrame hm h35 rfl (Nat.le_add_left 2 _) hz hd hcb
    exact ⟨_, _, hend, fun _ _ => ⟨rfl, rfl⟩, fun hne => absurd (hcrc.1 hz) (not_and_or.2 hne)⟩
  · have hend := hall.rtu_invalidFrame hm h35 rfl (.inr hz)
    exact ⟨_, _, hend, fun hlo hhi => absurd (hcrc.2 ⟨hlo, hhi⟩) hz, fun _ => ⟨rfl, rfl⟩⟩

end

/-- What is written from the first cell on stands there, and nothing else has changed. -/
theorem Memory.read_writeBytes_append (m : Memory) (bs cs : List Byte) :
    (∀ j, j < bs.length → Memory.read (Memory.writeBytes m 0 (bs ++ cs)) j = bs[j]?)
      ∧ ∀ j, bs.length + cs.length ≤ j →
        Memory.read (Memory.writeBytes m 0 (bs ++ cs)) j = Memory.read m j := by
  constructor <;> intro j hj <;> rw [Memory.read_writeBytes, List.length_append, Nat.zero_add]
  · rw [if_pos (by omega), Nat.sub_zero, List.getElem?_append_left hj]
  · rw [if_neg (by omega)]

/-- Settles O33: a frame is followed byte by byte to the silence that ends it, in three cases: for another
station, without room, and stored. -/
theorem binaryFrameReceived : Obligations.BinaryFrameReceived := by
  rintro s a pdu lo hi ⟨hvalid, -, -, ⟨-, -, htime, -⟩, -, -, hok, -⟩ hm hst hd hcb accepted
  have hacc : accept s.blk.station a = true ↔ accepted := accept_iff _ _
  obtain ⟨-, -, -, h35⟩ := htime hm
  have hmax : 1 ≤ s.cfg.bufferMax := (Config.bufferMax_ge hvalid).trans' (by decide)
  refine ⟨silence (arriveAll (a :: (pdu ++ [lo, hi])) s), rfl, ?_⟩
  by_cases ha : accept s.blk.station a = true
  case neg =>
    have h := rtuFrame_other hok h35 hm hst a pdu lo hi hmax ha
    have hb := h.blk
    rw [h.stat hok rfl] at hb
    rw [hacc] at ha
    refine ⟨?_, h.cfg, h.resetCfg, h.result, h.draws, h.polling, (absurd · ha), (absurd · ha), fun _ => hb⟩
    rw [hb]
  rcases Nat.lt_or_ge s.cfg.bufferMax (pdu.length + 2) with hfull | hroom
  · obtain ⟨buf, n, crc, h⟩ := rtuFrame_overflow hok h35 hm hst a pdu lo hi hmax ha hfull
    have hb := h.blk
    rw [h.stat hok (by rw [hst])] at hb
    refine ⟨?_, h.cfg, h.resetCfg, h.result, h.draws, h.polling, fun _ hroom => ?_, fun _ _ => ?_,
      (absurd (hacc.1 ha) ·)⟩
    · rw [hb]
    · omega
    · rw [hb]; exact ⟨rfl, rfl, rfl⟩
  · obtain ⟨x, len, h, hgood, hbad⟩ := rtuFrame_stored hok h35 hm hst a pdu lo hi ha hroom hd hcb
    have hpair : x.statusPair = s.blk.st.statusPair := by
      rw [hst]
      by_cases hz : lo = loByte (crc16 (a :: pdu)) ∧ hi = hiByte (crc16 (a :: pdu))
      · rw [(hgood hz.1 hz.2).1]; rfl
      · rw [(hbad (not_and_or.1 hz)).1]
    have hb := h.blk
    rw [h.stat hok hpair] at hb
    obtain ⟨hin, hout⟩ := Memory.read_writeBytes_append s.blk.buf pdu [lo, hi]
    refine ⟨?_, h.cfg, h.resetCfg, h.result, h.draws, h.polling, fun _ _ => ?_, fun _ hfull => ?_,
      (absurd (hacc.1 ha) ·)⟩
    · rw [hb]
    · rw [hb]; exact ⟨rfl, hgood, hbad, hin, hout⟩
    · omega

/-! ### A character frame, character by character -/

section
variable {s t : State} {b : Block} (h : Reaches s b t) (hm : s.cfg.mode = .ascii)
include h hm

theorem Reaches.ascii_colon (hst : b.st = .idle) :
    Reaches s { b with lrc := 0#8, rxN := 0, st := .rxAddrHi } (arrive 0x3A#8 t) := by
  obtain ⟨u, hr, hu⟩ := read1_prescribe t 0x3A#8
  have hrule := stepState_sampled_asciiIdle (s := t.prescribe (.bytes [0x3A#8])) (h.cfg ▸ hm) (h.st.trans hst)
  exact h.of_arrive (by simp [hst]) (microStep_again (hrule.trans (asciiIdle_of_colon _ hr))) hu
    (by rw [hu.blk]) (by rw [hu.blk, h.blk])

theorem Reaches.ascii_ignored {c : Byte} (hst : b.st = .idle) (hc : c ≠ 0x3A#8) :
    Reaches s b (arrive c t) := by
  obtain ⟨u, hr, hu⟩ := read1_prescribe t c
  have hrule := stepState_sampled_asciiIdle (s := t.prescribe (.bytes [c])) (h.cfg ▸ hm) (h.st.trans hst)
  exact h.of_arrive (c := u.blk) (by simp [hst])
    (microStep_again (hrule.trans (asciiIdle_of_other _ hc hr))) hu (by rw [hu.blk]) (by rw [hu.blk, h.blk])

/-- A character received in a state of a frame is given to the rule of that state. -/
theorem Reaches.ascii_rx {on : Byte → State → State} {c : Byte}
    (hon : asciiRxRule (t.prescribe (.bytes [c])).now b.st = some on) (hc : c ≠ 0x3A#8) :
    ∃ u, SameBlock t u ∧ arrive c t = statusUpdate (on c u) := by
  obtain ⟨u, hr, hu⟩ := read1_prescribe t c
  rw [← h.st] at hon
  have hrule := stepState_sampled_asciiRx (s := t.prescribe (.bytes [c])) (h.cfg ▸ hm) hon
  have hne : t.blk.st ≠ .exception := by
    intro he; rw [he] at hon; cases hon
  refine ⟨u, hu, ?_⟩
  rw [arrive_of_ne_exception c hne, microStep_again (hrule.trans (asciiRx_of_other _ _ hc hr))]

theorem Reaches.ascii_addrHi (hst : b.st = .rxAddrHi) (d : BitVec 4) :
    Reaches s { b with nib := d, st := .rxAddrLo } (arrive (hexchar d) t) := by
  have hd := hexval_hexchar d
  obtain ⟨u, hu, ha⟩ := h.ascii_rx hm (by rw [hst]; rfl) (ne_colon_of_hexval hd)
  rw [ha, asciiAddrHi_of_digit _ hd]
  exact h.step hu (by rw [hu.blk]) (by rw [hu.blk, h.blk])

theorem Reaches.ascii_addrLo (hst : b.st = .rxAddrLo) (d : BitVec 4)
    (hacc : accept b.station (nibbles b.nib d) = true) :
    Reaches s { b with
      faddr := nibbles b.nib d, lrc := b.lrc + nibbles b.nib d, st := .rxDataHi }
      (arrive (hexchar d) t) := by
  have hd := hexval_hexchar d
  obtain ⟨u, hu, ha⟩ := h.ascii_rx hm (by rw [hst]; rfl) (ne_colon_of_hexval hd)
  rw [ha, asciiAddrLo_of_accepted _ hd (by rw [hu.blk, h.blk]; exact hacc)]
  exact h.step hu (by rw [hu.blk]) (by rw [hu.blk, h.blk])

theorem Reaches.ascii_otherAddress (hst : b.st = .rxAddrLo) (d : BitVec 4)
    (hacc : ¬ accept b.station (nibbles b.nib d) = true) :
    Reaches s { b with st := .idle } (arrive (hexchar d) t) := by
  have hd := hexval_hexchar d
  obtain ⟨u, hu, ha⟩ := h.ascii_rx hm (by rw [hst]; rfl) (ne_colon_of_hexval hd)
  rw [ha, asciiAddrLo_of_rejected _ hd (by rw [hu.blk, h.blk]; exact hacc)]
  exact h.step hu (by rw [hu.blk]) (by rw [hu.blk, h.blk])

theorem Reaches.ascii_dataHi (hst : b.st = .rxDataHi) (d : BitVec 4) :
    Reaches s { b with nib := d, st := .rxDataLo } (arrive (hexchar d) t) := by
  have hd := hexval_hexchar d
  obtain ⟨u, hu, ha⟩ := h.ascii_rx hm (by rw [hst]; rfl) (ne_colon_of_hexval hd)
  rw [ha, asciiDataHi_of_digit _ hd]
  exact h.step hu (by rw [hu.blk]) (by rw [hu.blk, h.blk])

theorem Reaches.ascii_dataLo (hst : b.st = .rxDataLo) (d : BitVec 4) (hroom : b.rxN < s.cfg.bufferMax) :
    Reaches s { b with
      buf := Memory.write b.buf b.rxN (nibbles b.nib d), rxN := b.rxN + 1
      lrc := b.lrc + nibbles b.nib d, st := .rxDataHi } (arrive (hexchar d) t) := by
  have hd := hexval_hexchar d
  obtain ⟨u, hu, ha⟩ := h.ascii_rx hm (by rw [hst]; rfl) (ne_colon_of_hexval hd)
  rw [ha, asciiDataLo_of_stored _ hd (by rw [hu.blk, h.blk, hu.cfg, h.cfg]; exact hroom)]
  exact h.step hu (by rw [hu.blk]) (by rw [hu.blk, h.blk])

theorem Reaches.ascii_overflow (hst : b.st = .rxDataLo) (d : BitVec 4) (hfull : s.cfg.bufferMax ≤ b.rxN) :
    Reaches s { b with st := .idle } (arrive (hexchar d) t) := by
  have hd := hexval_hexchar d
  obtain ⟨u, hu, ha⟩ := h.ascii_rx hm (by rw [hst]; rfl) (ne_colon_of_hexval hd)
  rw [ha, asciiDataLo_of_full _ hd (by rw [hu.blk, h.blk, hu.cfg, h.cfg]; exact hfull)]
  exact h.step hu (by rw [hu.blk]) (by rw [hu.blk, h.blk])

theorem Reaches.ascii_cr (hst : b.st = .rxDataHi) :
    Reaches s { b with st := .rxLf } (arrive 0x0D#8 t) := by
  obtain ⟨u, hu, ha⟩ := h.ascii_rx (c := 0x0D#8) hm (by rw [hst]; rfl) (by decide)
  rw [ha, asciiDataHi_cr]
  exact h.step hu (by rw [hu.blk]) (by rw [hu.blk, h.blk])

theorem Reaches.ascii_invalidFrame (hst : b.st = .rxLf) (hbad : b.rxN < 1 ∨ b.lrc ≠ 0#8) :
    Reaches s { b with st := .idle } (arrive 0x0A#8 t) := by
  obtain ⟨u, hu, ha⟩ := h.ascii_rx (c := 0x0A#8) hm (by rw [hst]; rfl) (by decide)
  have hbad' : u.blk.rxN < 1 ∨ u.blk.lrc ≠ 0#8 := by rw [hu.blk, h.blk]; exact hbad
  rw [ha, asciiLf_lf, asciiEndOfFrame_of_invalid hbad']
  exact h.step hu (by rw [hu.blk]) (by rw [hu.blk, h.blk])

theorem Reaches.ascii_validFrame (hst : b.st = .rxLf) (hn : 1 ≤ b.rxN) (hlrc : b.lrc = 0#8)
    (hd : s.cfg.dispatcherAttached = false) (hcb : s.NoCallback) :
    Reaches s { b with len := b.rxN - 1, st := .frameReady } (arrive 0x0A#8 t) := by
  obtain ⟨u, hu, ha⟩ := h.ascii_rx (c := 0x0A#8) hm (by rw [hst]; rfl) (by decide)
  have hn' : 1 ≤ u.blk.rxN := by rw [hu.blk, h.blk]; exact hn
  have hlrc' : u.blk.lrc = 0#8 := by rw [hu.blk, h.blk]; exact hlrc
  have hd' : u.cfg.dispatcherAttached = false := by rw [hu.cfg, h.cfg]; exact hd
  have hcb' : u.env.callback = [] := hu.callback.trans (h.callback.trans hcb)
  rw [ha, asciiLf_lf, asciiEndOfFrame_of_valid hn' hlrc',
    enterFrameReady_of_noCallback (s := u.setLen (u.blk.rxN - 1)) hd' hcb']
  exact h.step (u := u) (c := { u.blk with len := u.blk.rxN - 1, st := .frameReady }) hu
    (by rw [hu.blk]) (by rw [hu.blk, h.blk])

theorem Reaches.ascii_ignoredAll {cs : List Byte} (hst : b.st = .idle) (hcs : 0x3A#8 ∉ cs) :
    Reaches s b (arriveAll cs t) := by
  induction cs generalizing t with
  | nil => exact h
  | cons c cs ih =>
    rw [List.mem_cons, not_or] at hcs
    exact ih (h.ascii_ignored hm hst (Ne.symm hcs.1)) hcs.2

end

theorem colon_notMem_hexAll (bs : List Byte) : 0x3A#8 ∉ hexAll bs := by
  have hne (d : BitVec 4) : 0x3A#8 ≠ hexchar d := (ne_colon_of_hexval (hexval_hexchar d)).symm
  simp [hexAll, hex2, hne]

theorem arriveAll_append (cs ds : List Byte) (s : State) :
    arriveAll (cs ++ ds) s = arriveAll ds (arriveAll cs s) := by
  induction cs generalizing s with
  | nil => rfl
  | cons c cs ih => exact ih _

section
variable {s : State} (hm : s.cfg.mode = .ascii)
include hm

/-- Bytes for which there is room are stored and summed. -/
theorem Reaches.ascii_bytes (bs : List Byte) {t : State} {b : Block} (h : Reaches s b t)
    (hst : b.st = .rxDataHi) (hroom : b.rxN + bs.length ≤ s.cfg.bufferMax) :
    ∃ nib, Reaches s { b with
      buf := Memory.writeBytes b.buf b.rxN bs, rxN := b.rxN + bs.length, lrc := Machine.lrcUpdate b.lrc bs
      nib := nib } (arriveAll (hexAll bs) t) := by
  induction bs generalizing t b with
  | nil => exact ⟨b.nib, h⟩
  | cons v bs ih =>
    rw [List.length_cons] at hroom ⊢
    have hb := (h.ascii_dataHi hm hst (v.extractLsb' 4 4)).ascii_dataLo hm rfl (v.extractLsb' 0 4)
      (by simp only; omega)
    rw [nibbles_extractLsb'] at hb
    obtain ⟨nib, hall⟩ := ih hb rfl (by simp only; omega)
    rw [Nat.add_assoc, Nat.add_comm 1] at hall
    rw [← hst] at hall
    exact ⟨nib, hall⟩

/-- Bytes for which there is no room end in IDLE. -/
theorem Reaches.ascii_bytesOverflow (bs : List Byte) {t : State} {b : Block} (h : Reaches s b t)
    (hst : b.st = .rxDataHi) (hfull : s.cfg.bufferMax < b.rxN + bs.length) (hn : b.rxN ≤ s.cfg.bufferMax) :
    ∃ buf n lrc nib, Reaches s { b with buf := buf, rxN := n, lrc := lrc, nib := nib, st := .idle }
      (arriveAll (hexAll bs) t) := by
  induction bs generalizing t b with
  | nil => rw [List.length_nil] at hfull; omega
  | cons v bs ih =>
    rw [List.length_cons] at hfull
    have hhi := h.ascii_dataHi hm hst (v.extractLsb' 4 4)
    rcases Nat.lt_or_ge b.rxN s.cfg.bufferMax with hroom | hge
    · have hb := hhi.ascii_dataLo hm rfl (v.extractLsb' 0 4) hroom
      obtain ⟨buf, n, lrc, nib, hall⟩ := ih hb rfl (by simp only; omega) hroom
      exact ⟨buf, n, lrc, nib, hall⟩
    · have hidle := hhi.ascii_overflow hm rfl (v.extractLsb' 0 4) hge
      exact ⟨_, _, _, _, hidle.ascii_ignoredAll hm rfl (colon_notMem_hexAll bs)⟩

end

/-! ### A character frame -/

/-- The characters after the colon and the address. -/
def asciiTail (pdu : List Byte) (l : Byte) : List Byte := hexAll (pdu ++ [l]) ++ [0x0D#8, 0x0A#8]

theorem colon_notMem_asciiTail (pdu : List Byte) (l : Byte) : 0x3A#8 ∉ asciiTail pdu l := by
  simp [asciiTail, colon_notMem_hexAll]

theorem ascii_lrc_eq_zero_iff (a : Byte) (pdu : List Byte) (l : Byte) :
    Machine.lrcUpdate (0#8 + a) (pdu ++ [l]) = 0#8 ↔ l = Machine.lrc (a :: pdu) :=
  lrcAppend (a :: pdu) l

section
variable {s : State} (hok : s.blk.StatusOk s.cfg) (hm : s.cfg.mode = .ascii) (hst : s.blk.st = .idle)
  (a : Byte) (pdu : List Byte) (l : Byte)
include hok hm hst

theorem asciiFrame_other (ha : ¬ accept s.blk.station a = true) :
    ∃ lrc n nib, Reaches s { s.blk with lrc := lrc, rxN := n, nib := nib, st := .idle }
      (arriveAll (encode (.asciiFrame a pdu l)) s) := by
  have hhi := ((Reaches.refl hok).ascii_colon hm hst).ascii_addrHi hm rfl (a.extractLsb' 4 4)
  have hlo := hhi.ascii_otherAddress hm rfl (a.extractLsb' 0 4) (by rw [nibbles_extractLsb']; exact ha)
  exact ⟨_, _, _, hlo.ascii_ignoredAll hm rfl (colon_notMem_asciiTail pdu l)⟩

theorem asciiFrame_address (ha : accept s.blk.station a = true) :
    Reaches s { s.blk with
        faddr := a, lrc := 0#8 + a, rxN := 0, nib := a.extractLsb' 4 4, st := .rxDataHi }
      (arrive (hexchar (a.extractLsb' 0 4)) (arrive (hexchar (a.extractLsb' 4 4)) (arrive 0x3A#8 s))) := by
  have hhi := ((Reaches.refl hok).ascii_colon hm hst).ascii_addrHi hm rfl (a.extractLsb' 4 4)
  have hlo := hhi.ascii_addrLo hm rfl (a.extractLsb' 0 4) (by rw [nibbles_extractLsb']; exact ha)
  rw [nibbles_extractLsb'] at hlo
  exact hlo

theorem asciiFrame_overflow (ha : accept s.blk.station a = true)
    (hfull : s.cfg.bufferMax < pdu.length + 1) :
    ∃ buf n lrc nib,
      Reaches s { s.blk with faddr := a, buf := buf, rxN := n, lrc := lrc, nib := nib, st := .idle }
        (arriveAll (encode (.asciiFrame a pdu l)) s) := by
  obtain ⟨buf, n, lrc, nib, hidle⟩ := (asciiFrame_address hok hm hst a ha).ascii_bytesOverflow hm
    (pdu ++ [l]) rfl (by simpa using hfull) (Nat.zero_le _)
  refine ⟨buf, n, lrc, nib, ?_⟩
  have hall := hidle.ascii_ignoredAll (cs := [0x0D#8, 0x0A#8]) hm rfl (by decide)
  rw [← arriveAll_append] at hall
  exact hall

/-- A frame there is room for is stored after its address; CR and LF then end it. -/
theorem asciiFrame_stored (ha : accept s.blk.station a = true) (hroom : pdu.length + 1 ≤ s.cfg.bufferMax)
    (hd : s.cfg.dispatcherAttached = false) (hcb : s.NoCallback) :
    ∃ x len nib, Reaches s { s.blk with
        faddr := a, st := x, len := len, nib := nib
        buf := Memory.writeBytes s.blk.buf 0 (pdu ++ [l]), rxN := pdu.length + 1
        lrc := Machine.lrcUpdate (0#8 + a) (pdu ++ [l]) }
        (arriveAll (encode (.asciiFrame a pdu l)) s)
      ∧ (l = Machine.lrc (a :: pdu) → x = .frameReady ∧ len = pdu.length)
      ∧ (l ≠ Machine.lrc (a :: pdu) → x = .idle ∧ len = s.blk.len) := by
  obtain ⟨nib, hdata⟩ := (asciiFrame_address hok hm hst a ha).ascii_bytes hm (pdu ++ [l]) rfl
    (by simpa using hroom)
  rw [List.length_append, Nat.zero_add] at hdata
  have hcr := hdata.ascii_cr hm rfl
  have htail (u : State) : arriveAll (encode (.asciiFrame a pdu l)) u
      = arrive 0x0A#8 (arrive 0x0D#8 (arriveAll (hexAll (pdu ++ [l])) (arrive (hexchar (a.extractLsb' 0 4))
          (arrive (hexchar (a.extractLsb' 4 4)) (arrive 0x3A#8 u))))) :=
    arriveAll_append (hexAll (pdu ++ [l])) [0x0D#8, 0x0A#8] _
  rw [htail]
  have hlrc := ascii_lrc_eq_zero_iff a pdu l
  by_cases hz : Machine.lrcUpdate (0#8 + a) (pdu ++ [l]) = 0#8
  · have hend := hcr.ascii_validFrame hm rfl (Nat.le_add_left 1 _) hz hd hcb
    exact ⟨_, _, _, hend, fun _ => ⟨rfl, rfl⟩, fun hne => absurd (hlrc.1 hz) hne⟩
  · have hend := hcr.ascii_invalidFrame hm rfl (.inr hz)
    exact ⟨_, _, _, hend, fun hl => absurd (hlrc.2 hl) hz, fun _ => ⟨rfl, rfl⟩⟩

end

/-- Settles O44: a frame is followed character by character, in three cases: for another station, without
room, and stored. -/
theorem characterFrameReceived : Obligations.CharacterFrameReceived := by
  intro s a pdu l hm hst hd hcb hok accepted
  have hacc : accept s.blk.station a = true ↔ accepted := accept_iff _ _
  refine ⟨arriveAll (encode (.asciiFrame a pdu l)) s, rfl, ?_⟩
  by_cases ha : accept s.blk.station a = true
  case neg =>
    obtain ⟨lrc, n, nib, h⟩ := asciiFrame_other hok hm hst a pdu l ha
    have hb := h.blk
    rw [h.stat hok (by rw [hst])] at hb
    rw [hacc] at ha
    refine ⟨?_, h.cfg, h.resetCfg, h.result, h.draws, h.polling, (absurd · ha), (absurd · ha), fun _ => ?_⟩
    · rw [hb]
    · rw [hb]; exact ⟨rfl, rfl, rfl, rfl⟩
  rcases Nat.lt_or_ge s.cfg.bufferMax (pdu.length + 1) with hfull | hroom
  · obtain ⟨buf, n, lrc, nib, h⟩ := asciiFrame_overflow hok hm hst a pdu l ha hfull
    have hb := h.blk
    rw [h.stat hok (by rw [hst])] at hb
    refine ⟨?_, h.cfg, h.resetCfg, h.result, h.draws, h.polling, fun _ hroom => ?_, fun _ _ => ?_,
      (absurd (hacc.1 ha) ·)⟩
    · rw [hb]
    · omega
    · rw [hb]; exact ⟨rfl, rfl, rfl⟩
  · obtain ⟨x, len, nib, h, hgood, hbad⟩ := asciiFrame_stored hok hm hst a pdu l ha hroom hd hcb
    have hpair : x.statusPair = s.blk.st.statusPair := by
      rw [hst]
      by_cases hz : l = Machine.lrc (a :: pdu)
      · rw [(hgood hz).1]; rfl
      · rw [(hbad hz).1]
    have hb := h.blk
    rw [h.stat hok hpair] at hb
    obtain ⟨hin, hout⟩ := Memory.read_writeBytes_append s.blk.buf pdu [l]
    refine ⟨?_, h.cfg, h.resetCfg, h.result, h.draws, h.polling, fun _ _ => ?_, fun _ hfull => ?_,
      (absurd (hacc.1 ha) ·)⟩
    · rw [hb]
    · rw [hb]; exact ⟨rfl, hgood, hbad, hin, hout⟩
    · omega

end Sys2Proof.Machine
end

section
/-! PROOF of O45 and O48 to O53: the dispatcher's functions (44_dispatcher.md). Every request row is `serve` of
its function, which answers as the validators and the handler decide; a response lies in the buffer in place of
the request. -/

namespace Sys2Proof.Machine

/-! ### Serving a request -/

section
variable (fc : Byte) {body : State → Option Byte × State} {s u : State}
  (hst : s.blk.st = .frameReady ∨ s.blk.st = .collision)
include hst

theorem serve_of_some {exc : Byte} (h : body (beginSend s).2 = (some exc, u)) :
    serve fc body s = handBack fc exc u := by
  rcases serve_cases fc body s with ⟨-, hf, hc⟩ | ⟨-, ⟨_, hu, -⟩ | ⟨_, _, hu, hserve⟩⟩
  · exact absurd hst (not_or.2 ⟨hf, hc⟩)
  · cases h.symm.trans hu
  · cases h.symm.trans hu; exact hserve

theorem serve_of_none (h : body (beginSend s).2 = (none, u)) : serve fc body s = abandon s u := by
  rcases serve_cases fc body s with ⟨-, hf, hc⟩ | ⟨-, ⟨_, hu, hserve⟩ | ⟨_, _, hu, -⟩⟩
  · exact absurd hst (not_or.2 ⟨hf, hc⟩)
  · cases h.symm.trans hu; exact hserve
  · cases h.symm.trans hu

end

theorem beginSend_cfg (s : State) : (beginSend s).2.cfg = s.cfg := by
  rcases beginSend_cases s with ⟨h, -⟩ | ⟨h, -⟩ | ⟨h, -⟩ <;> simp [h]

/-! ### The function a request selects -/

theorem functionOf_illegalFunction {fc : Byte} (h : isFunctionCode fc = false) (data : List Byte) :
    functionOf fc data = functionIllegal := by
  have hcodes : fc.toNat ≠ 0x01 ∧ fc.toNat ≠ 0x02 ∧ fc.toNat ≠ 0x03 ∧ fc.toNat ≠ 0x04 ∧ fc.toNat ≠ 0x05
      ∧ fc.toNat ≠ 0x06 ∧ fc.toNat ≠ 0x0F ∧ fc.toNat ≠ 0x10 := by
    simpa [isFunctionCode, ← BitVec.toNat_inj] using h
  unfold functionOf
  split
  any_goals omega
  rfl

/-- The row a PDU decodes to runs the function its first byte selects. -/
theorem exec_of_decodeRequest {fc : Byte} {data : List Byte} {i : Instr}
    (h : decodeRequest (fc :: data) = .ok i) (s : State) :
    exec i s = .next (serve fc (functionOf fc data) s) := by
  by_cases hfc : isFunctionCode fc = true
  · simp only [isFunctionCode, decide_eq_true_eq, List.mem_cons, List.not_mem_nil, or_false] at hfc
    rcases hfc with rfl | rfl | rfl | rfl | rfl | rfl | rfl | rfl <;> cases h <;> rfl
  · have hfc := Bool.eq_false_iff.2 hfc
    rw [decodeRequest_illegalFunction hfc] at h
    cases h
    rw [functionOf_illegalFunction hfc]; rfl

theorem dispatch_of_request {s : State} (h : s.blk.st = .frameReady ∨ s.blk.st = .collision) {fc : Byte}
    {data : List Byte} (hpdu : s.pdu = fc :: data) :
    dispatch s = serve fc (functionOf fc data) s.draw := by
  rcases h with h | h <;> simp [dispatch, h, hpdu]

/-- Every request row is served, by some function. -/
theorem exec_request {i : Instr} (h : i.space = .request) :
    ∃ fc body, ∀ s, exec i s = .next (serve fc body s) := by
  cases i
  case readCoils | readDiscreteInputs | readHoldingRegisters | readInputRegisters | writeSingleCoil
      | writeSingleRegister | writeMultipleCoils | writeMultipleRegisters | illegalFunction =>
    exact ⟨_, _, fun _ => rfl⟩
  all_goals cases h

/-- Settles O45: DISPATCH and the decoded row serve the same function. -/
theorem dispatchRunsDecodedRequest : Obligations.DispatchRunsDecodedRequest := by
  refine fun s i => ⟨fun hst hdec => ?_, fun hf hc hi => ?_⟩
  · cases hpdu : s.pdu with
    | nil => rw [hpdu] at hdec; cases hdec
    | cons fc data =>
      rw [hpdu] at hdec
      refine ⟨_, ?_, exec_of_decodeRequest hdec s.draw⟩
      rw [exec_dispatch, dispatch_of_request hst hpdu]
  · obtain ⟨fc, body, hexec⟩ := exec_request hi
    rw [hexec, serve_eq_markRefused fc body hf hc]

/-- Settles O52: the function of every other code answers 1 at once. -/
theorem illegalFunctionServed : Obligations.IllegalFunctionServed :=
  fun _ fc data hst =>
    ⟨congrArg Host.Outcome.next (serve_of_some fc hst rfl), fun hfc => decodeRequest_illegalFunction hfc data⟩

/-- Settles O53: the two bytes are written at cell 0. -/
theorem exceptionResponseEncoded : Obligations.ExceptionResponseEncoded := by
  refine fun s fc code => ⟨fun hst => ?_, fun hq hc => ?_⟩
  · refine ⟨Memory.writeBytes s.blk.buf 0 [fc ||| 0x80#8, code], ?_, ?_⟩
    · exact if_pos ((St.composing_iff _).2 hst)
    · refine ⟨by simp [Memory.read_writeBytes], by simp [Memory.read_writeBytes], fun j hj => ?_⟩
      rw [Memory.read_writeBytes, if_neg (by simp; omega)]
  · exact execExceptionResponse_refused fc code
      (Bool.eq_false_iff.2 fun h => not_or.2 ⟨hq, hc⟩ ((St.composing_iff _).1 h))

/-! ### Reads -/

theorem readValidator_of_invalid {size : U16 → Nat} {data : List Byte} {n : Nat}
    (h : data.length ≠ 4 ∨ (reqCount data).toNat = 0 ∨ n < 2 + size (reqCount data)) :
    readValidator size data n = 0x03#8 := by
  unfold readValidator
  split_ifs
  · rfl
  · rfl
  · rfl
  · omega

theorem readValidator_of_valid {size : U16 → Nat} {data : List Byte} {n : Nat} (hlen : data.length = 4)
    (hcount : (reqCount data).toNat ≠ 0) (hfit : 2 + size (reqCount data) ≤ n) :
    readValidator size data n = 0#8 := by
  simp [readValidator, hlen, hcount, Nat.not_lt.2 hfit]

/-- A byte count and the bytes it counts, written from cell 1 on. -/
theorem Memory.read_response (m : Memory) (bs : List Byte) :
    Memory.read (Memory.writeBytes m 1 (BitVec.ofNat 8 bs.length :: bs)) 1
        = some (BitVec.ofNat 8 bs.length)
      ∧ (∀ j, j < bs.length →
        Memory.read (Memory.writeBytes m 1 (BitVec.ofNat 8 bs.length :: bs)) (2 + j) = bs[j]?)
      ∧ ∀ j, (j = 0 ∨ 2 + bs.length ≤ j) →
        Memory.read (Memory.writeBytes m 1 (BitVec.ofNat 8 bs.length :: bs)) j = Memory.read m j := by
  refine ⟨?_, fun j hj => ?_, fun j hj => ?_⟩ <;> rw [Memory.read_writeBytes, List.length_cons]
  · rw [if_pos (by omega)]; rfl
  · rw [if_pos (by omega), show 2 + j - 1 = j + 1 by omega, List.getElem?_cons_succ]
  · rw [if_neg (by omega)]

theorem callHandler_beginSend_buf {c : HandlerCall} {s u : State} {a : HandlerAnswer}
    (h : callHandler c (beginSend s).2 = (a, u)) : u.blk.buf = s.blk.buf := by
  have hblk := (callHandler_blk c (beginSend s).2).1
  rw [h] at hblk
  rw [hblk, beginSend_buf]

section
variable (fc : Byte) (size wanted : U16 → Nat) (items : HandlerAnswer → Nat)
  (payload : HandlerAnswer → List Byte) (call : U16 → U16 → HandlerCall) (data : List Byte) {s : State}
  (hst : s.blk.st = .frameReady ∨ s.blk.st = .collision)
include hst

theorem serve_read_of_invalid
    (h : data.length ≠ 4 ∨ (reqCount data).toNat = 0 ∨ s.cfg.bufferMax < 2 + size (reqCount data)) :
    serve fc (readThrough size wanted items payload call data) s = handBack fc 0x03#8 (beginSend s).2 := by
  rw [← beginSend_cfg s] at h
  have hv := readValidator_of_invalid h
  have hread := readThrough_of_invalid size wanted items payload call data (s := (beginSend s).2)
    (by rw [hv]; decide)
  rw [hv] at hread
  exact serve_of_some fc hst hread

section
variable (hlen : data.length = 4) (hcount : (reqCount data).toNat ≠ 0)
  (hfit : 2 + size (reqCount data) ≤ s.cfg.bufferMax) {a : HandlerAnswer} {u : State}
  (hcall : callHandler (call (reqAddress data) (reqCount data)) (beginSend s).2 = (a, u))
include hlen hcount hfit hcall

theorem serve_read_of_exception (hexc : a.exc ≠ 0#8) :
    serve fc (readThrough size wanted items payload call data) s = handBack fc a.exc u :=
  serve_of_some fc hst (readThrough_of_exception size wanted items payload call data
    (readValidator_of_valid hlen hcount (beginSend_cfg s ▸ hfit)) hcall hexc)

theorem serve_read_of_wrong_length (hexc : a.exc = 0#8) (hitems : items a ≠ wanted (reqCount data)) :
    serve fc (readThrough size wanted items payload call data) s = abandon s u :=
  serve_of_none fc hst (readThrough_of_wrong_length size wanted items payload call data
    (readValidator_of_valid hlen hcount (beginSend_cfg s ▸ hfit)) hcall hexc hitems)

theorem serve_read_of_answer (hexc : a.exc = 0#8) (hitems : items a = wanted (reqCount data)) :
    serve fc (readThrough size wanted items payload call data) s
      = handBack fc 0#8 (u.setBlk { u.blk with
          buf := Memory.writeBytes s.blk.buf 1 (BitVec.ofNat 8 (payload a).length :: payload a)
          len := 2 + (payload a).length }) := by
  rw [← callHandler_beginSend_buf hcall]
  exact serve_of_some fc hst (readThrough_of_answer size wanted items payload call data
    (readValidator_of_valid hlen hcount (beginSend_cfg s ▸ hfit)) hcall hexc hitems)

end
end

/-- Settles O48: both rows are one read, whose response is the handler's bytes. -/
theorem readBitsServed : Obligations.ReadBitsServed := by
  intro s data i fc call hst hi q addr number count size
  have hexec : exec i s = .next
      (serve fc (readThrough bitSize bitSize (fun a => a.bytes.length) (fun a => a.bytes) call data) s) := by
    rcases hi with ⟨rfl, rfl, rfl⟩ | ⟨rfl, rfl, rfl⟩ <;> rfl
  rw [hexec]
  refine ⟨fun h => ?_, fun hlen hcount hfit ans u hcall => ⟨fun hexc => ?_, fun hexc hitems => ?_,
    fun hexc hitems => ?_⟩⟩
  · rw [serve_read_of_invalid fc bitSize _ _ _ call data hst h]
  · rw [serve_read_of_exception fc bitSize _ _ _ call data hst hlen hcount hfit hcall hexc]
  · refine ⟨_, rfl, ?_⟩
    rw [serve_read_of_wrong_length fc bitSize _ _ _ call data hst hlen hcount hfit hcall hexc hitems]; rfl
  · have hserve := serve_read_of_answer fc bitSize bitSize (fun a => a.bytes.length) (fun a => a.bytes) call
      data hst hlen hcount hfit hcall hexc hitems
    have hcells := Memory.read_response s.blk.buf ans.bytes
    rw [hitems] at hserve hcells
    exact ⟨_, congrArg _ hserve, hcells⟩

theorem bytesOfWords_getElem? (regs : List U16) (j : Nat) :
    (bytesOfWords regs)[2 * j]? = (regs[j]?).map hiByte
      ∧ (bytesOfWords regs)[2 * j + 1]? = (regs[j]?).map loByte := by
  induction regs generalizing j with
  | nil => exact ⟨rfl, rfl⟩
  | cons r rs ih =>
    cases j with
    | zero => exact ⟨rfl, rfl⟩
    | succ j => exact ih j

/-- Settles O49: both rows are one read, whose response is the handler's registers laid out. -/
theorem readRegistersServed : Obligations.ReadRegistersServed := by
  intro s data i fc call hst hi q addr number count
  have hexec : exec i s = .next (serve fc (readThrough registerSize BitVec.toNat (fun a => a.regs.length)
      (fun a => bytesOfWords a.regs) call data) s) := by
    rcases hi with ⟨rfl, rfl, rfl⟩ | ⟨rfl, rfl, rfl⟩ <;> rfl
  rw [hexec]
  refine ⟨fun h => ?_, fun hlen hcount hfit ans u hcall => ⟨fun hexc => ?_, fun hexc hitems => ?_,
    fun hexc hitems => ?_⟩⟩
  · rw [serve_read_of_invalid fc registerSize _ _ _ call data hst h]
  · rw [serve_read_of_exception fc registerSize _ _ _ call data hst hlen hcount hfit hcall hexc]
  · refine ⟨_, rfl, ?_⟩
    rw [serve_read_of_wrong_length fc registerSize _ _ _ call data hst hlen hcount hfit hcall hexc hitems]; rfl
  · have hserve := serve_read_of_answer fc registerSize BitVec.toNat (fun a => a.regs.length)
      (fun a => bytesOfWords a.regs) call data hst hlen hcount hfit hcall hexc hitems
    have hcells := Memory.read_response s.blk.buf (bytesOfWords ans.regs)
    rw [bytesOfWords_length, hitems] at hserve hcells
    obtain ⟨hsize, hin, hout⟩ := hcells
    refine ⟨_, congrArg _ hserve, hsize, fun j hj => ?_, hout⟩
    obtain ⟨hhi, hlo⟩ := bytesOfWords_getElem? ans.regs j
    exact ⟨(hin (2 * j) (by omega)).trans hhi,
      (congrArg _ (by omega)).trans ((hin (2 * j + 1) (by omega)).trans hlo)⟩

/-! ### Writes -/

section
variable {i : Instr} {fc : Byte} {body : State → Option Byte × State} {c : HandlerCall} {s u : State}
  {a : HandlerAnswer} (hexec : exec i s = .next (serve fc body s))
  (hst : s.blk.st = .frameReady ∨ s.blk.st = .collision)
  (hbody : body (beginSend s).2 = writeThrough c (beginSend s).2)
  (hcall : callHandler c (beginSend s).2 = (a, u))
include hexec hst hbody hcall

theorem exec_write :
    (a.exc ≠ 0#8 → exec i s = .next (handBack fc a.exc u))
      ∧ (a.exc = 0#8 → exec i s = .next (handBack fc 0#8 (u.setBlk { u.blk with len := 5 }))) := by
  rw [hexec]
  constructor <;> intro hexc
  · rw [serve_of_some fc hst (hbody.trans (writeThrough_of_exception hcall hexc))]
  · rw [serve_of_some fc hst (hbody.trans (writeThrough_of_success hcall hexc))]; rfl

end

section
variable {data : List Byte} (s : State)

theorem function05_of_invalid
    (h : data.length ≠ 4 ∨ (reqCount data ≠ 0x0000#16 ∧ reqCount data ≠ 0xFF00#16)) :
    function05 data s = (some 0x03#8, s) := by
  unfold function05
  split_ifs with hlen hvalue
  · rfl
  · rfl
  · exact absurd h (not_or.2 ⟨fun hne => hlen (by omega), hvalue⟩)

theorem function05_of_valid {on : Bool} (hlen : data.length = 4)
    (hon : (reqCount data = 0xFF00#16 ∧ on = true) ∨ (reqCount data = 0x0000#16 ∧ on = false)) :
    function05 data s = writeThrough (.writeSingleCoil (reqAddress data) on) s := by
  rcases hon with ⟨hvalue, rfl⟩ | ⟨hvalue, rfl⟩ <;> simp [function05, hlen, hvalue]

theorem function06_of_invalid (h : data.length ≠ 4) : function06 data s = (some 0x03#8, s) :=
  if_pos (by omega)

theorem function06_of_valid (hlen : data.length = 4) :
    function06 data s = writeThrough (.writeSingleRegister (reqAddress data) (reqCount data)) s :=
  if_neg (by omega)

end

/-- Settles O50: the two functions by their validation, then by the handler's answer. -/
theorem writeSingleServed : Obligations.WriteSingleServed := by
  intro s data hst q addr value
  refine ⟨fun h => ?_, fun on ans u hlen hon hcall => ?_, fun h => ?_, fun ans u hlen hcall => ?_⟩
  · exact congrArg _ (serve_of_some _ hst (function05_of_invalid q h))
  · exact exec_write rfl hst (function05_of_valid q hlen hon) hcall
  · exact congrArg _ (serve_of_some _ hst (function06_of_invalid q h))
  · exact exec_write rfl hst (function06_of_valid q hlen) hcall

theorem writeMultipleValidator_of_invalid {size : U16 → Nat} {data : List Byte}
    (h : data.length < 5 ∨ reqByteCount data ≠ size (reqCount data)
      ∨ reqByteCount data + 5 ≠ data.length) : writeMultipleValidator size data = 0x03#8 := by
  unfold writeMultipleValidator
  split_ifs
  · rfl
  · rfl
  · rfl
  · omega

theorem writeMultipleValidator_of_valid {size : U16 → Nat} {data : List Byte} (hlen : 5 ≤ data.length)
    (hsize : reqByteCount data = size (reqCount data)) (hbytes : reqByteCount data + 5 = data.length) :
    writeMultipleValidator size data = 0#8 := by
  rw [writeMultipleValidator, if_neg (by omega), if_neg (not_not.2 hsize), if_neg (by omega)]

/-- The words of a byte string, read two bytes at a time. -/
theorem wordsOf_eq_map (bs : List Byte) (n : Nat) (h : bs.length = 2 * n) :
    wordsOf bs = (List.range n).map fun j => be16 (bs.getD (2 * j) 0#8) (bs.getD (2 * j + 1) 0#8) := by
  induction n generalizing bs with
  | zero => rw [List.length_eq_zero_iff.1 h]; rfl
  | succ n ih =>
    match bs, h with
    | hi :: lo :: rest, h =>
      rw [List.range_succ_eq_map, List.map_cons, List.map_map, wordsOf, ih rest (by simp at h; omega)]
      rfl

section
variable {data : List Byte} (s : State)

theorem function0F_of_invalid
    (h : data.length < 5 ∨ reqByteCount data ≠ bitSize (reqCount data)
      ∨ reqByteCount data + 5 ≠ data.length) : function0F data s = (some 0x03#8, s) := by
  simp [function0F, writeMultipleValidator_of_invalid h]

theorem function10_of_invalid
    (h : data.length < 5 ∨ reqByteCount data ≠ registerSize (reqCount data)
      ∨ reqByteCount data + 5 ≠ data.length) : function10 data s = (some 0x03#8, s) := by
  simp [function10, writeMultipleValidator_of_invalid h]

section
variable (hlen : 5 ≤ data.length) (hbytes : reqByteCount data + 5 = data.length)
include hlen hbytes

theorem function0F_of_valid (hsize : reqByteCount data = bitSize (reqCount data)) :
    function0F data s
      = writeThrough (.writeMultipleCoils (reqAddress data) (reqCount data) (data.drop 5)) s := by
  simp [function0F, writeMultipleValidator_of_valid hlen hsize hbytes, reqPayload]

theorem function10_of_valid (hsize : reqByteCount data = registerSize (reqCount data)) :
    function10 data s
      = writeThrough (.writeMultipleRegisters (reqAddress data) (reqCount data)
          ((List.range (reqCount data).toNat).map fun j =>
            be16 (data.getD (5 + 2 * j) 0#8) (data.getD (6 + 2 * j) 0#8))) s := by
  have hwords := wordsOf_eq_map (reqPayload data) (reqCount data).toNat (by
    rw [reqPayload, List.length_drop]; rw [registerSize] at hsize; omega)
  have hget (k : Nat) : (reqPayload data).getD k 0#8 = data.getD (5 + k) 0#8 := by
    simp [reqPayload, List.getD_eq_getElem?_getD]
  simp only [hget, ← Nat.add_assoc, Nat.add_right_comm 5 _ 1] at hwords
  simp [function10, writeMultipleValidator_of_valid hlen hsize hbytes, hwords]

end
end

/-- Settles O51: the two functions by their validation, then by the handler's answer. -/
theorem writeMultipleServed : Obligations.WriteMultipleServed := by
  intro s data hst q addr number count bc
  refine ⟨fun h => ?_, fun ans u hlen hsize hbytes hcall => ?_, fun h => ?_,
    fun ans u hlen hsize hbytes hcall => ?_⟩
  · exact congrArg _ (serve_of_some _ hst (function0F_of_invalid q h))
  · exact exec_write rfl hst (function0F_of_valid q hlen hbytes hsize) hcall
  · exact congrArg _ (serve_of_some _ hst (function10_of_invalid q h))
  · exact exec_write rfl hst (function10_of_valid q hlen hbytes hsize) hcall

end Sys2Proof.Machine
end

section
/-! PROOF of O5, O6, O16, O22 and O39: a step, the agents, the accessors, the status notification and the
frame-ready callback. -/

namespace Sys2Proof.Machine

/-! ### A step -/

theorem dropInput_of_cons {s : State} {x : Input} {rest : List Input} (h : s.env.inputs = x :: rest) :
    s.dropInput = s.setEnv { s.env with inputs := rest } := by
  simp [State.dropInput, h]

/-- Settles O5. -/
theorem stepRunsDecodedCommand : Obligations.StepRunsDecodedCommand := by
  refine fun s => ⟨fun bytes rest i hp hin hdec => ?_, fun hp => if_pos hp, fun hp hin => ?_⟩
  · simp [step, hp, hin, hdec, dropInput_of_cons hin]
  · simp [step, hp, hin]

theorem step_of_stimulus {s : State} {x : Input} {rest : List Input} (hp : s.polling = false)
    (hin : s.env.inputs = x :: rest) (hx : ∀ bytes, x ≠ .word bytes) :
    step s = .next (stimulate x (s.setEnv { s.env with inputs := rest })) := by
  rw [← dropInput_of_cons hin]
  cases x with
  | word bytes => exact absurd rfl (hx bytes)
  | _ => simp [step, hp, hin]

/-! ### What the agents answer when nothing is prescribed -/

section
variable {s : State} (n : Nat) (hs : s.env.rxScript = [])
include hs

theorem rxAnswer_of_err (he : s.env.rxErr = true) :
    rxAnswer n s = (.err, s.setEnv { s.env with rxErr := false }) := by
  simp [rxAnswer, hs, he]

theorem rxAnswer_of_queued (he : s.env.rxErr = false) {b : Byte} {bs : List Byte}
    (hq : s.env.rxQueue = b :: bs) :
    rxAnswer n s = (.bytes ((b :: bs).take n), s.setEnv { s.env with rxQueue := (b :: bs).drop n }) := by
  simp [rxAnswer, hs, he, hq]

theorem rxAnswer_of_endless (he : s.env.rxErr = false) (hq : s.env.rxQueue = []) {k : Nat}
    (hk : s.env.rxEndless = some k) :
    rxAnswer n s = (endlessAnswer n k, s.setEnv { s.env with rxEndless := some (k + 1) }) := by
  simp [rxAnswer, hs, he, hq, hk]

end

theorem discard_of_err {s t : State} (h : rxAnswer s.cfg.bufferMax s = (.err, t)) :
    Machine.discard s = (.err, t.logCall (.discard s.cfg.bufferMax .err)) := by
  rw [Machine.discard, Config.discardMax, h]

theorem discard_of_inRange {s t : State} {bs : List Byte} (h : rxAnswer s.cfg.bufferMax s = (.bytes bs, t))
    (hlen : bs.length ≤ s.cfg.bufferMax) :
    Machine.discard s = (.count bs.length, t.logCall (.discard s.cfg.bufferMax (.bytes bs))) := by
  rw [Machine.discard, Config.discardMax, h]
  simp [hlen]

theorem read1_of_answer {s t : State} {a : RxAnswer} (h : rxAnswer 1 s = (a, t)) :
    (a = .err → read1 s = (.err, t.logCall (.read 1 .err)))
      ∧ ∀ b, a = .bytes [b] → read1 s = (.byte b, t.logCall (.read 1 (.bytes [b]))) := by
  refine ⟨?_, fun b => ?_⟩ <;> rintro rfl <;> rw [read1, h]

/-- Settles O6: the stimuli one by one, then the answers by what is pending. -/
theorem stimuliChangeTheAgents : Obligations.StimuliChangeTheAgents := by
  refine ⟨fun s rest hp => ?stimuli, fun s => ⟨fun hs he => ?err, fun b bs hs he hq => ?queued,
    fun hs he hq hk => ?silent, fun k hs he hq hk => ?endless, fun seq hs => ?write, fun hs => ?complete,
    fun hs hnow => ?ticks⟩⟩
  case stimuli =>
    refine ⟨fun _ hin => ?_, fun _ hin => ?_, fun _ hin => ?_, fun hin => ?_, fun hin => ?_, fun hin => ?_,
      fun hin => ?_, fun _ hin => ?_, fun _ hin => ?_⟩ <;>
      exact step_of_stimulus hp hin (fun _ => Input.noConfusion)
  case err => exact ⟨(read1_of_answer (rxAnswer_of_err 1 hs he)).1 rfl, discard_of_err (rxAnswer_of_err _ hs he)⟩
  case queued =>
    refine ⟨(read1_of_answer (rxAnswer_of_queued 1 hs he hq)).2 b rfl, ?_⟩
    rw [discard_of_inRange (rxAnswer_of_queued _ hs he hq) (List.length_take_le _ _), List.length_take]
  case silent =>
    have hsilent : s.env.Silent := ⟨hs, he, hq, hk⟩
    exact ⟨read1_of_silent hsilent, discard_of_inRange (rxAnswer_of_silent _ hsilent) (Nat.zero_le _)⟩
  case endless =>
    have hread := read1_of_answer (rxAnswer_of_endless 1 hs he hq hk)
    have hdiscard := rxAnswer_of_endless s.cfg.bufferMax hs he hq hk
    refine ⟨fun hitem => ?_, fun b hitem => ?_⟩
    · have herr (n : Nat) : endlessAnswer n k = .err := by rw [endlessAnswer, hitem]
      rw [herr] at hdiscard
      exact ⟨hread.1 (herr 1), discard_of_err hdiscard⟩
    · have hbyte {n : Nat} (hn : 0 < n) : endlessAnswer n k = .bytes [b] := by
        have htake : [b].take n = [b] := List.take_of_length_le hn
        simp [endlessAnswer, hitem, htake]
      refine ⟨hread.2 b (hbyte Nat.one_pos), fun hmax => ?_⟩
      rw [hbyte hmax] at hdiscard
      exact discard_of_inRange hdiscard hmax
  case write => exact ⟨fun he => by simp [write, hs, he], fun he => by simp [write, hs, he]⟩
  case complete => simp [writeComplete, hs]
  case ticks => simp [ticks, hs, Config.tickModulus, Nat.mod_eq_of_lt hnow]

/-! ### The accessors -/

theorem St.held_iff (x : St) : x.held = true ↔ x = .frameReady ∨ x = .queue ∨ x = .collision := by
  cases x <;> simp [St.held]

theorem execBufferRead_of_inRange {i : U16} {s : State} (hi : i.toNat < s.cfg.bufferMax) :
    (s.blk.st.held = true → exec (.bufferRead i) s = .next (s.setResult (.u8 (s.cell i.toNat))).draw)
      ∧ (s.blk.st.held = false →
        exec (.bufferRead i) s = .next (s.setResult (.u8 (Config.freeByte s.draws))).draw) := by
  constructor <;> intro hheld <;> simp [exec, execBufferRead, Nat.not_le.2 hi, hheld]

/-- Settles O16, by whether the application may look at the frame. -/
theorem accessorsAnswer : Obligations.AccessorsAnswer := by
  refine fun s => ⟨fun hst => ?_, fun hf hq hc => ?_, fun i hi => ?_, fun i hi => if_pos hi⟩
  · have hheld := (St.held_iff _).2 hst
    refine ⟨if_pos hheld, if_pos hheld, fun i v hi hv => ?_⟩
    rw [(execBufferRead_of_inRange hi).1 hheld, s.cell_of_read _ v hv]
  · have hheld : ¬ s.blk.st.held = true := by rw [St.held_iff]; simp [hf, hq, hc]
    exact ⟨⟨_, if_neg hheld⟩, _, Nat.le_of_lt_succ (Nat.mod_lt _ (Nat.succ_pos _)), if_neg hheld⟩
  · cases hheld : s.blk.st.held with
    | true => exact ⟨_, (execBufferRead_of_inRange hi).1 hheld⟩
    | false => exact ⟨_, (execBufferRead_of_inRange hi).2 hheld⟩

/-! ### The status notification -/

theorem statusPair_eq (x : St) :
    (decide (x ∈ [St.receive, .rxAddrHi, .rxAddrLo, .rxDataHi, .rxDataLo, .rxLf]),
        decide (x ∈ [St.txStart, .txAddress, .txPdu, .txChecksum, .txEnd, .txDrain]))
      = x.statusPair := by
  cases x <;> rfl

/-- Settles O22. -/
theorem statusIsReportedOnChange : Obligations.StatusIsReportedOnChange := by
  intro s pair
  have hpair : pair = s.blk.st.statusPair := statusPair_eq _
  rw [hpair]
  refine ⟨fun hd => if_neg ?_, fun hd he => if_neg ?_, fun hd hne => if_pos ⟨hd, hne⟩⟩
  · simp [hd]
  · simp [he]

/-! ### The frame-ready callback -/

theorem callbackWords_cons_ok {w : List Byte} {i : Instr} (h : decodeCommand w = .ok i)
    (ws : List (List Byte)) (s : State) :
    callbackWords (w :: ws) s = callbackWords ws (callbackCommand i s) := by
  simp [callbackWords, h]

theorem callbackWords_cons_error {w : List Byte} {e : DecodeError} (h : decodeCommand w = .error e)
    (ws : List (List Byte)) (s : State) : callbackWords (w :: ws) s = callbackWords ws s.markRefused := by
  simp [callbackWords, h]

theorem callbackCommand_eq {i : Instr} (hi : i.space = .command) (hp : i ≠ .poll) (s : State) :
    exec i s = .next (callbackCommand i s) := by
  rcases callbackCommand_cases i s with ⟨-, -, h⟩ | ⟨h | h, -⟩
  · exact h
  · exact absurd hi h
  · exact absurd h hp

theorem enterFrameReady_of_callback {s : State} {words : List (List Byte)}
    {rest : List (List (List Byte))} (hd : s.cfg.dispatcherAttached = false)
    (hc : s.env.callback = words :: rest) :
    enterFrameReady s = callbackWords words
      (((s.goto .frameReady).setEnv { s.env with callback := rest }).logCall .frameReady) := by
  simp [enterFrameReady, externalCallback, hd, hc]

/-- Settles O39: the words one after the other, then the end of a valid frame in each mode. -/
theorem frameReadyCallback : Obligations.FrameReadyCallback := by
  refine ⟨fun s w ws => ⟨rfl, fun i hdec hp => ?_, fun hdec => callbackWords_cons_ok hdec ws s,
    fun e hdec => callbackWords_cons_error hdec ws s⟩, fun s t words rest hd hc => ⟨?rtu, ?ascii⟩⟩
  · have hi := (decodeCommand_eq_ok_iff.1 hdec).1
    exact ⟨_, callbackCommand_eq hi hp s, callbackWords_cons_ok hdec ws s⟩
  case rtu =>
    intro hm hst hr h35 hn hcrc
    have hsame := read1_sampled_same hr
    have hend := rtuReceive_of_t35 (now := s.now) hr (by rw [hsame.blk, hsame.cfg]; exact h35)
    rw [rtuEndOfFrame_of_valid (hsame.blk ▸ hn) (hsame.blk ▸ hcrc),
      enterFrameReady_of_callback (s := t.setLen (t.blk.rxN - 2)) (hsame.cfg ▸ hd)
        (hsame.callback.trans hc)] at hend
    rw [microStep_again ((stepState_sampled_receive hm hst).trans hend), ← hsame.blk]; rfl
  case ascii =>
    intro hm hst hr hn hlrc
    have hsame := read1_sampled_same hr
    have hend := asciiRx_of_other s.now (asciiLf s.now) (by decide) hr
    rw [asciiLf_lf, asciiEndOfFrame_of_valid (hsame.blk ▸ hn) (hsame.blk ▸ hlrc),
      enterFrameReady_of_callback (s := t.setLen (t.blk.rxN - 1)) (hsame.cfg ▸ hd)
        (hsame.callback.trans hc)] at hend
    have hrule := stepState_sampled_asciiRx (s := s) hm (by rw [hst]; rfl)
    rw [microStep_again (hrule.trans hend), ← hsame.blk]; rfl

end Sys2Proof.Machine
end

section
/-! PROOF of O24: a POLL ends where the stream falls silent (41_engine_commands.md R201, R222). Between two
consumptions the engine only comes closer to a state that waits: `State.rank` counts the micro-steps it may still
make, and with what the streams hold it gives `State.work`, which every micro-step answering `continue` lowers
and which the fuel of a POLL exceeds. -/

namespace Sys2Proof.Machine

/-! ### The micro-steps left -/

/-- How far a state is from one in which silence ends the POLL. -/
def St.stage : St → Nat
  | .exception | .idle | .frameReady | .queue | .collision => 0
  | .dump | .txGuard => 1
  | .txDrain => 2
  | .txEnd => 3
  | .txChecksum => 4
  | .txPdu => 5
  | .txAddress => 6
  | .txStart => 7
  | .receive | .rxAddrHi | .rxAddrLo | .rxDataHi | .rxDataLo | .rxLf => 8

/-- At most this many micro-steps answer `continue` before something is consumed: two in each phase of a
transmission, one to write what is left and one to pass on. -/
def State.rank (s : State) : Nat :=
  2 * s.blk.st.stage + if s.blk.txPos = txLimit s.cfg.mode s.blk.st s.blk.len then 0 else 1

/-- At most this many micro-steps of a POLL answer `continue`. -/
def State.work (s : State) : Nat := 20 * s.env.pending + s.rank

theorem St.stage_le (x : St) : x.stage ≤ 8 := by cases x <;> decide

theorem St.stage_lt_of_not_rxActive {x : St} (h : x.rxActive = false) : x.stage < 8 := by
  cases x <;> simp_all [St.rxActive, St.stage]

theorem State.rank_le (s : State) : s.rank ≤ 17 := by
  have h := s.blk.st.stage_le
  unfold State.rank
  split <;> omega

theorem State.work_lt_pollFuel (s : State) : s.work < pollFuel s := by
  have h := s.rank_le
  unfold State.work pollFuel
  omega

theorem rank_lt_of_stage {s t : State} (h : t.blk.st.stage < s.blk.st.stage) : t.rank < s.rank := by
  unfold State.rank
  split <;> split <;> omega

/-- A phase has written all it had to write. -/
theorem rank_lt_of_cursor {s t : State} (hst : t.blk.st = s.blk.st)
    (hpos : s.blk.txPos ≠ txLimit s.cfg.mode s.blk.st s.blk.len)
    (hend : t.blk.txPos = txLimit t.cfg.mode t.blk.st t.blk.len) : t.rank < s.rank := by
  rw [State.rank, State.rank, if_neg hpos, if_pos hend, hst]
  omega

/-- The state passes to one nearer the end. -/
theorem rank_lt_of_passes {s t : State} {x y : St} (hs : s.blk.st = x) (ht : t.blk.st = y)
    (h : y.stage < x.stage) : t.rank < s.rank :=
  rank_lt_of_stage (by rw [hs, ht]; exact h)

theorem rank_congr {s t : State} (hb : t.blk = s.blk) (hc : t.cfg = s.cfg) : t.rank = s.rank := by
  rw [State.rank, hb, hc, ← State.rank]

/-! ### What a rule that goes on has done -/

theorem setBlk_streams (s : State) (b : Block) : Drains s (s.setBlk b) := ⟨Nat.le_refl _, id⟩

/-- The streams give nothing back; where they end, something was consumed or the engine is closer to a state
that waits. -/
structure Advances (s t : State) : Prop where
  streams : Drains s t
  progress : s.env.rxEndless = none → t.env.pending < s.env.pending ∨ t.rank < s.rank

theorem Advances.of_rank {s t : State} (hs : Drains s t) (h : t.rank < s.rank) : Advances s t :=
  ⟨hs, fun _ => .inr h⟩

/-- A call that consumed something, and what came after it. -/
theorem Advances.of_spent {s t u : State}
    (hs : Drains s t ∧ (s.env.rxEndless = none → t.env.pending < s.env.pending)) (hu : Drains t u) :
    Advances s u :=
  ⟨hs.1.trans hu, fun he => .inl (hu.pending.trans_lt (hs.2 he))⟩

theorem discard_streams {s t : State} {r : DiscardResult} (h : Machine.discard s = (r, t))
    (hr : r ≠ .count 0) : Drains s t ∧ (s.env.rxEndless = none → t.env.pending < s.env.pending) := by
  rcases ha : rxAnswer s.cfg.discardMax s with ⟨a, u⟩
  obtain ⟨hdrains, hspent⟩ := rxAnswer_streams ha
  rw [Machine.discard, ha] at h
  cases h
  refine ⟨⟨hdrains.pending, hdrains.endless⟩, fun he => hspent he ?_⟩
  rintro rfl
  simp at hr

theorem read1_streams {s t : State} {r : ReadResult} (h : read1 s = (r, t)) (hr : r ≠ .nothing) :
    Drains s t ∧ (s.env.rxEndless = none → t.env.pending < s.env.pending) := by
  rcases ha : rxAnswer 1 s with ⟨a, u⟩
  obtain ⟨hdrains, hspent⟩ := rxAnswer_streams ha
  rw [read1, ha] at h
  cases h
  refine ⟨⟨hdrains.pending, hdrains.endless⟩, fun he => hspent he ?_⟩
  rintro rfl
  simp at hr

/-- A rule that answers `continue` advances. -/
def Moves (s : State) (r : StepAnswer × State) : Prop := r.1 = .again → Advances s r.2

theorem Moves.of_again {s t : State} {a : StepAnswer} (h : Advances s t) : Moves s (a, t) := fun _ => h

theorem Moves.of_stop {s t : State} {a : StepAnswer} (h : a ≠ .again) : Moves s (a, t) := (absurd · h)

/-! ### Entering FRAME_READY -/

/-- A POLL under way stays under way, and the streams give nothing back. -/
structure Undisturbed (s t : State) : Prop where
  streams : Drains s t
  polling : t.polling = s.polling

theorem Undisturbed.refl (s : State) : Undisturbed s s := ⟨.refl s, rfl⟩

theorem Undisturbed.trans {s t u : State} (h : Undisturbed s t) (k : Undisturbed t u) : Undisturbed s u :=
  ⟨h.streams.trans k.streams, k.polling.trans h.polling⟩

theorem Called.undisturbed {bad : Prop} {s t : State} (h : Called bad s t) : Undisturbed s t :=
  ⟨h.streams, h.polling⟩

theorem setBlk_undisturbed (s : State) (b : Block) : Undisturbed s (s.setBlk b) := ⟨setBlk_streams s b, rfl⟩

theorem statusUpdate_undisturbed (s : State) : Undisturbed s (statusUpdate s) := by
  obtain ⟨_, _, h⟩ := statusUpdate_only s
  rw [h]; exact ⟨⟨Nat.le_refl _, id⟩, rfl⟩

theorem leaveCollision_undisturbed (s : State) : Undisturbed s (leaveCollision s) := by
  cases hm : s.cfg.mode with
  | rtu => rw [leaveCollision_rtu hm]; exact (sampled_sameInstance s).undisturbed.trans (setBlk_undisturbed _ _)
  | ascii => rw [leaveCollision_ascii hm]; exact setBlk_undisturbed s _

theorem startTransmit_undisturbed (s : State) : Undisturbed s (startTransmit s) := by
  cases hm : s.cfg.mode with
  | rtu => rw [startTransmit_rtu hm]; exact ⟨⟨Nat.le_refl _, id⟩, rfl⟩
  | ascii => rw [startTransmit_ascii hm]; exact ⟨⟨Nat.le_refl _, id⟩, rfl⟩

theorem HostUpdate.undisturbed {s t : State} (h : HostUpdate s t) : Undisturbed s t := by
  cases h with
  | mark | station | compose => exact setBlk_undisturbed s _
  | agents h => exact h.undisturbed
  | baud rate =>
    obtain ⟨_, _, _, _, _, h⟩ := setupBaud_only rate s
    rw [h]; exact setBlk_undisturbed s _
  | acquire | release | fatal => exact (setBlk_undisturbed s _).trans (statusUpdate_undisturbed _)
  | abort => exact (leaveCollision_undisturbed s).trans (statusUpdate_undisturbed _)
  | transmit => exact (startTransmit_undisturbed s).trans (statusUpdate_undisturbed _)

theorem leaveCollision_rxActive (s : State) : (leaveCollision s).blk.st.rxActive = false := by
  cases hm : s.cfg.mode <;> simp [leaveCollision, hm, St.rxActive]

theorem startTransmit_rxActive (s : State) : (startTransmit s).blk.st.rxActive = false := by
  cases hm : s.cfg.mode <;> simp [startTransmit, hm, St.rxActive]

/-- No command begins a reception. -/
theorem HostUpdate.rxActive {s t : State} (h : HostUpdate s t) (hs : s.blk.st.rxActive = false) :
    t.blk.st.rxActive = false := by
  cases h with
  | mark | station | compose => exact hs
  | agents h => rw [h.blk]; exact hs
  | baud rate =>
    obtain ⟨_, _, _, _, _, h⟩ := setupBaud_only rate s
    rw [h]; exact hs
  | acquire | release | fatal => rw [statusUpdate_st]; rfl
  | abort => rw [statusUpdate_st]; exact leaveCollision_rxActive s
  | transmit => rw [statusUpdate_st]; exact startTransmit_rxActive s

/-- What the entry into FRAME_READY does, a RESET by the callback included (log 33): the POLL under way is not
disturbed, and no reception is under way any more. -/
structure Entered (s t : State) : Prop where
  undisturbed : Undisturbed s t
  rxActive : t.blk.st.rxActive = false

theorem construct_undisturbed (s : State) : Undisturbed s (construct s) := by
  rcases construct_cases s with ⟨-, hc⟩ | ⟨-, hc⟩ <;> rw [hc]
  · exact setBlk_undisturbed s _
  · have h := (sampled_sameInstance { s with cfg := s.resetCfg }).undisturbed
    exact ⟨⟨h.streams.pending, h.streams.endless⟩, h.polling⟩

theorem construct_rxActive {s : State} (hs : s.blk.st.rxActive = false) :
    (construct s).blk.st.rxActive = false := by
  rcases construct_cases s with ⟨-, hc⟩ | ⟨-, hc⟩ <;> rw [hc]
  · exact hs
  · rw [State.setBlk_blk, Block.afterReset_st]; split <;> rfl

theorem enterFrameReady_entered (s : State) : Entered s (enterFrameReady s) :=
  enterFrameReady_keeps (P := Entered s)
    (fun _ h => ⟨h.undisturbed.trans (construct_undisturbed _), construct_rxActive h.rxActive⟩)
    (fun _ _ h hu => ⟨h.undisturbed.trans hu.undisturbed, hu.rxActive h.rxActive⟩)
    (fun _ _ h => ⟨h.undisturbed.trans ⟨⟨Nat.le_refl _, id⟩, rfl⟩, h.rxActive⟩)
    ⟨setBlk_undisturbed s _, rfl⟩

/-! ### The rules of reception and of the application's states -/

section
variable (now : Nat) {s : State}

theorem stepHeld_moves : Moves s (stepHeld s) := by
  rcases hd : Machine.discard s with ⟨r, t⟩
  cases r with
  | outOfRange => simpa [stepHeld, hd] using Moves.of_stop (by simp)
  | err =>
    rw [stepHeld_of_err hd]
    exact .of_again (.of_spent (discard_streams hd (by simp)) (setBlk_streams t _))
  | count k =>
    rcases k.eq_zero_or_pos with rfl | hk
    · rw [stepHeld_of_silence hd]; exact .of_stop (by simp)
    · rw [stepHeld_of_bytes hk hd]
      exact .of_again (.of_spent (discard_streams hd (by simp [hk.ne'])) (setBlk_streams t _))

theorem stepCollision_moves : Moves s (stepCollision s) := by
  rcases hd : Machine.discard s with ⟨r, t⟩
  cases r with
  | outOfRange => simpa [stepCollision, hd] using Moves.of_stop (by simp)
  | err => rw [stepCollision_of_err hd]; exact .of_stop (by simp)
  | count k =>
    rcases k.eq_zero_or_pos with rfl | hk
    · rw [stepCollision_of_silence hd]; exact .of_stop (by simp)
    · rw [stepCollision_of_bytes hk hd]
      exact .of_again (.of_spent (discard_streams hd (by simp [hk.ne'])) (.refl t))

theorem stepSilence_moves (threshold : Nat) (hst : s.blk.st.stage = 1) :
    Moves s (stepSilence threshold now s) := by
  rcases hd : Machine.discard s with ⟨r, t⟩
  cases r with
  | outOfRange => simpa [stepSilence, hd] using Moves.of_stop (by simp)
  | err =>
    rw [stepSilence_of_err threshold now hd]
    exact .of_again (.of_spent (discard_streams hd (by simp)) (setBlk_streams t _))
  | count k =>
    rcases k.eq_zero_or_pos with rfl | hk
    · rcases Nat.lt_or_ge (elapsed t.cfg t.blk.tRef now) threshold with hlt | hge
      · rw [stepSilence_of_early threshold now hd hlt]; exact .of_stop (by simp)
      · rw [stepSilence_of_reached threshold now hd hge]
        have hdrains := (discard_called hd).streams
        refine .of_again (.of_rank (hdrains.trans (setBlk_streams t _)) (rank_lt_of_stage ?_))
        rw [hst]; exact Nat.one_pos
    · rw [stepSilence_of_bytes threshold now hk hd]
      exact .of_again (.of_spent (discard_streams hd (by simp [hk.ne'])) (setBlk_streams t _))

theorem rtuIdle_moves : Moves s (rtuIdle now s) := by
  rcases hr : read1 s with ⟨r, t⟩
  cases r with
  | outOfRange => simpa [rtuIdle, hr] using Moves.of_stop (by simp)
  | nothing => rw [rtuIdle_of_nothing now hr]; exact .of_stop (by simp)
  | err =>
    rw [rtuIdle_of_err now hr]
    exact .of_again (.of_spent (read1_streams hr (by simp)) (setBlk_streams t _))
  | byte a =>
    have hspent := read1_streams hr (by simp)
    by_cases ha : accept t.blk.station a = true
    · rw [rtuIdle_of_accepted now hr ha]; exact .of_again (.of_spent hspent (setBlk_streams t _))
    · rw [rtuIdle_of_rejected now hr ha]; exact .of_again (.of_spent hspent (setBlk_streams t _))

theorem rtuEndOfFrame_entered (s : State) : Entered s (rtuEndOfFrame s) := by
  unfold rtuEndOfFrame
  split
  · have h := enterFrameReady_entered (s.setLen (s.blk.rxN - 2))
    exact ⟨(setBlk_undisturbed s _).trans h.undisturbed, h.rxActive⟩
  · exact ⟨setBlk_undisturbed s _, rfl⟩

theorem asciiEndOfFrame_entered (s : State) : Entered s (asciiEndOfFrame s) := by
  unfold asciiEndOfFrame
  split
  · have h := enterFrameReady_entered (s.setLen (s.blk.rxN - 1))
    exact ⟨(setBlk_undisturbed s _).trans h.undisturbed, h.rxActive⟩
  · exact ⟨setBlk_undisturbed s _, rfl⟩

theorem rtuReceive_moves (hst : s.blk.st = .receive) : Moves s (rtuReceive now s) := by
  rcases hr : read1 s with ⟨r, t⟩
  cases r with
  | outOfRange => simpa [rtuReceive, hr] using Moves.of_stop (by simp)
  | err =>
    rw [rtuReceive_of_err now hr]
    exact .of_again (.of_spent (read1_streams hr (by simp)) (setBlk_streams t _))
  | byte b =>
    have hspent := read1_streams hr (by simp)
    by_cases hstore : t.blk.gap = false ∧ t.blk.rxN < t.cfg.bufferMax
    · rw [rtuReceive_of_stored now hr hstore.1 hstore.2]
      exact .of_again (.of_spent hspent (setBlk_streams t _))
    · rw [rtuReceive_of_discarded now hr (by simpa [Classical.or_iff_not_imp_left] using hstore)]
      exact .of_again (.of_spent hspent (setBlk_streams t _))
  | nothing =>
    rcases Nat.lt_or_ge (elapsed t.cfg t.blk.tRef now) t.blk.t35 with h35 | h35
    · rcases Nat.lt_or_ge (elapsed t.cfg t.blk.tRef now) t.blk.t15 with h15 | h15
      · rw [rtuReceive_of_before_t15 hr h35 h15]; exact .of_stop (by simp)
      · rw [rtuReceive_of_gap hr h35 h15]; exact .of_stop (by simp)
    · have hend := rtuEndOfFrame_entered t
      rw [rtuReceive_of_t35 hr h35]
      have hdrains := (read1_called hr).streams.trans hend.undisturbed.streams
      refine .of_again (.of_rank hdrains (rank_lt_of_stage ?_))
      rw [hst]; exact St.stage_lt_of_not_rxActive hend.rxActive

theorem asciiIdle_moves : Moves s (asciiIdle now s) := by
  rcases hr : read1 s with ⟨r, t⟩
  cases r with
  | outOfRange => simpa [asciiIdle, hr] using Moves.of_stop (by simp)
  | nothing => rw [asciiIdle_of_nothing now hr]; exact .of_stop (by simp)
  | err =>
    rw [asciiIdle_of_err now hr]
    exact .of_again (.of_spent (read1_streams hr (by simp)) (setBlk_streams t _))
  | byte c =>
    by_cases hcolon : c = 0x3A#8
    · subst hcolon
      rw [asciiIdle_of_colon now hr]
      exact .of_again (.of_spent (read1_streams hr (by simp)) (setBlk_streams t _))
    · rw [asciiIdle_of_other now hcolon hr]
      exact .of_again (.of_spent (read1_streams hr (by simp)) (.refl t))

/-- The rule of a reception state for a character calls nobody, but where it ends a frame. -/
theorem asciiRxRule_undisturbed {x : St} {on : Byte → State → State} (hon : asciiRxRule now x = some on)
    (c : Byte) (t : State) : Undisturbed t (on c t) := by
  cases x <;> simp only [asciiRxRule, Option.some.injEq, reduceCtorEq] at hon <;> subst hon
  case rxAddrHi => simp only [asciiAddrHi]; split <;> exact setBlk_undisturbed t _
  case rxAddrLo =>
    simp only [asciiAddrLo]
    split
    · split <;> exact setBlk_undisturbed t _
    · exact setBlk_undisturbed t _
  case rxDataHi =>
    simp only [asciiDataHi]
    split
    · exact setBlk_undisturbed t _
    · split <;> exact setBlk_undisturbed t _
  case rxDataLo =>
    simp only [asciiDataLo]
    split
    · split <;> exact setBlk_undisturbed t _
    · exact setBlk_undisturbed t _
  case rxLf =>
    unfold asciiLf
    split
    · exact (asciiEndOfFrame_entered t).undisturbed
    · exact setBlk_undisturbed t _

theorem asciiRx_moves {on : Byte → State → State} (hon : asciiRxRule now s.blk.st = some on) :
    Moves s (asciiRx now on s) := by
  have hst : s.blk.st.stage = 8 := by
    cases h : s.blk.st <;> simp_all [asciiRxRule, St.stage]
  rcases hr : read1 s with ⟨r, t⟩
  cases r with
  | outOfRange => simpa [asciiRx, hr] using Moves.of_stop (by simp)
  | err =>
    rw [asciiRx_of_err now on hr]
    exact .of_again (.of_spent (read1_streams hr (by simp)) (setBlk_streams t _))
  | byte c =>
    have hspent := read1_streams hr (by simp)
    by_cases hcolon : c = 0x3A#8
    · subst hcolon
      rw [asciiRx_of_colon now on hr]; exact .of_again (.of_spent hspent (setBlk_streams t _))
    · rw [asciiRx_of_other now on hcolon hr]
      exact .of_again (.of_spent hspent (asciiRxRule_undisturbed now hon c t).streams)
  | nothing =>
    rcases Nat.lt_or_ge (elapsed t.cfg t.blk.tRef now) t.blk.t1s with hlt | hge
    · rw [asciiRx_of_early now on hr hlt]; exact .of_stop (by simp)
    · rw [asciiRx_of_timeout now on hr hge]
      have hdrains := (read1_called hr).streams
      refine .of_again (.of_rank (hdrains.trans (setBlk_streams t _)) (rank_lt_of_stage ?_))
      rw [hst]; exact Nat.succ_pos 7

end

/-! ### The phases of a transmission -/

/-- A phase advances where it goes on, unless it goes on because of the `k` echo bytes discarded before it. -/
def PhaseMoves (k : Nat) (s : State) (r : StepAnswer × State) : Prop :=
  r.1 = .again → Drains s r.2 ∧ (k = 0 → Advances s r.2)

theorem PhaseMoves.of_advances {k : Nat} {s t : State} (h : Advances s t) : PhaseMoves k s (.again, t) :=
  fun _ => ⟨h.streams, fun _ => h⟩

theorem PhaseMoves.idleAfter {k : Nat} {s t : State} (h : Drains s t) :
    PhaseMoves k s (Machine.idleAfter k, t) := by
  refine fun ha => ⟨h, ?_⟩
  rintro rfl
  cases ha

theorem stepTransmit_moves (x : St) (now : Nat) {s : State} {phase : Nat → State → StepAnswer × State}
    (hphase : ∀ k t, SameBlock s t → PhaseMoves k t (phase k t)) :
    Moves s (stepTransmit x now phase s) := by
  rcases hd : Machine.discard s with ⟨r, t⟩
  cases r with
  | outOfRange => simpa [stepTransmit, hd] using Moves.of_stop (by simp)
  | err =>
    rw [stepTransmit_of_err x now phase hd]
    exact .of_again (.of_spent (discard_streams hd (by simp)) ⟨Nat.le_refl _, id⟩)
  | count k =>
    have hsame := discard_same hd
    have hdrains := (discard_called hd).streams
    rw [stepTransmit_of_count x now phase hd]
    intro hagain
    obtain ⟨hstreams, hadv⟩ := hphase k t hsame hagain
    rcases k.eq_zero_or_pos with rfl | hk
    · obtain ⟨-, hprogress⟩ := hadv rfl
      refine ⟨hdrains.trans hstreams, fun he => ?_⟩
      rw [← rank_congr hsame.blk hsame.cfg]
      exact (hprogress (hdrains.endless he)).imp_left (·.trans_le hdrains.pending)
    · exact .of_spent (discard_streams hd (by simp [hk.ne'])) hstreams

/-- What was offered is accepted whole, or a prescribed answer or a pending `ERR` is consumed. -/
theorem offer_moves {seq : List Byte} {after : Nat → Block → Block} (k : Nat) {s : State}
    (hafter : 0 < seq.length → (s.setBlk (after seq.length s.blk)).rank < s.rank) :
    PhaseMoves k s (offer seq after k s) := by
  rcases hw : write seq s with ⟨r, t⟩
  obtain ⟨hdrains, hspent⟩ := write_streams hw
  have hsame := write_same hw
  cases r with
  | outOfRange => rw [offer_of_outOfRange after k hw]; exact (absurd · (by simp))
  | err => rw [offer_of_err after k hw]; exact (absurd · (by simp))
  | accepted w =>
    rcases w.eq_zero_or_pos with rfl | hpos
    · rw [offer_of_nothing after k hw]; exact .idleAfter hdrains
    · rw [offer_of_accepted after k hpos hw]
      refine .of_advances ?_
      by_cases hall : w = seq.length
      · subst hall
        refine .of_rank (hdrains.trans (setBlk_streams t _)) ?_
        have hrank : (t.setBlk (after seq.length t.blk)).rank = (s.setBlk (after seq.length s.blk)).rank :=
          rank_congr (congrArg (after seq.length) hsame.blk) hsame.cfg
        rw [hrank]; exact hafter hpos
      · exact .of_spent ⟨hdrains, fun _ => hspent (by simpa using hall)⟩ (setBlk_streams t _)

/-- The free values of the PDU's unwritten cells are drawn before the bytes are offered (log 9). -/
theorem PhaseMoves.of_draw {k : Nat} {s : State} {r : StepAnswer × State} (h : PhaseMoves k s.draw r) :
    PhaseMoves k s r := by
  intro hagain
  obtain ⟨⟨hpending, hendless⟩, hadv⟩ := h hagain
  exact ⟨⟨hpending, hendless⟩, fun hk => ⟨⟨hpending, hendless⟩, (hadv hk).progress⟩⟩

theorem txDrain_moves {x : St} (now k : Nat) {s : State} (hst : s.blk.st = .txDrain) (hx : x.stage = 1) :
    PhaseMoves k s (txDrain x now k s) := by
  rcases hw : writeComplete s with ⟨_ | _, t⟩
  · rw [txDrain_of_pending x now k hw]; exact .idleAfter (writeComplete_streams hw)
  · rw [txDrain_of_complete x now k hw]
    exact .of_advances (.of_rank ((writeComplete_streams hw).trans ⟨Nat.le_refl _, id⟩)
      (rank_lt_of_passes (y := x) hst rfl (by rw [hx]; decide)))

section
variable (k : Nat) {s : State}

theorem rtuTxAddress_moves (hst : s.blk.st = .txAddress) : PhaseMoves k s (rtuTxAddress k s) := by
  rw [rtuTxAddress_eq]
  exact offer_moves k fun _ => rank_lt_of_passes (y := .txPdu) hst rfl (by decide)

theorem rtuTxPdu_moves (hm : s.cfg.mode = .rtu) (hst : s.blk.st = .txPdu) :
    PhaseMoves k s (rtuTxPdu k s) := by
  have hlimit : txLimit s.cfg.mode s.blk.st s.blk.len = s.blk.len := by rw [hst, hm]; rfl
  by_cases hpos : s.blk.txPos = s.blk.len
  · rw [rtuTxPdu_of_end k hpos]
    exact .of_advances (.of_rank (setBlk_streams s _) (rank_lt_of_passes (y := .txChecksum) hst rfl (by decide)))
  · rw [rtuTxPdu_of_rest k hpos]
    refine .of_draw (offer_moves k fun hlen => rank_lt_of_cursor rfl (hlimit.symm ▸ hpos) ?_)
    rw [State.cells_length] at hlen ⊢
    have hle : s.blk.txPos ≤ s.blk.len := by omega
    exact Eq.trans (Nat.add_sub_cancel' hle) hlimit.symm

theorem rtuTxChecksum_moves (hst : s.blk.st = .txChecksum) : PhaseMoves k s (rtuTxChecksum k s) := by
  have hlimit : txLimit s.cfg.mode s.blk.st s.blk.len = 2 := by rw [hst]; rfl
  by_cases hpos : s.blk.txPos = 2
  · rw [rtuTxChecksum_of_end k hpos]
    exact .of_advances (.of_rank (setBlk_streams s _) (rank_lt_of_passes (y := .txDrain) hst rfl (by decide)))
  · rw [rtuTxChecksum_of_rest k hpos]
    refine offer_moves k fun hlen => rank_lt_of_cursor rfl (hlimit.symm ▸ hpos) ?_
    rw [List.length_drop] at hlen ⊢
    exact Eq.trans (Nat.add_sub_cancel' (by omega)) hlimit.symm

/-- A character phase: at its end the next one begins, before it what is left is offered. -/
theorem phaseWrite_moves {seq : List Byte} {next : St} {exit : Block → Block}
    {accepted : Nat → Block → Block} (hseq : seq.length = txLimit s.cfg.mode s.blk.st s.blk.len)
    (hnext : next.stage < s.blk.st.stage)
    (haccepted : ∀ w, (accepted w s.blk).st = s.blk.st ∧ (accepted w s.blk).len = s.blk.len) :
    PhaseMoves k s (phaseWrite seq next exit accepted k s) := by
  by_cases hpos : s.blk.txPos = seq.length
  · rw [phaseWrite_of_end next exit accepted k hpos]
    exact .of_advances (.of_rank (setBlk_streams s _) (rank_lt_of_stage hnext))
  · rw [phaseWrite_of_rest next exit accepted k hpos]
    obtain ⟨hst, hlen⟩ := haccepted (seq.drop s.blk.txPos).length
    refine offer_moves k fun hrest => rank_lt_of_cursor hst (hseq ▸ hpos) ?_
    simp only [State.setBlk_blk, State.setBlk_cfg, hst, hlen, ← hseq]
    rw [List.length_drop] at hrest ⊢
    omega

end

/-! ### Every state -/

section
variable (now : Nat) {s : State}

theorem stepRtu_moves (hm : s.cfg.mode = .rtu) : Moves s (stepRtu now s) := by
  unfold stepRtu
  cases hst : s.blk.st
  case dump => exact stepSilence_moves now _ (by rw [hst]; rfl)
  case idle => exact rtuIdle_moves now
  case receive => exact rtuReceive_moves now hst
  case txAddress => exact stepTransmit_moves _ now fun k t h => rtuTxAddress_moves k (h.blk ▸ hst)
  case txPdu => exact stepTransmit_moves _ now fun k t h => rtuTxPdu_moves k (h.cfg ▸ hm) (h.blk ▸ hst)
  case txChecksum => exact stepTransmit_moves _ now fun k t h => rtuTxChecksum_moves k (h.blk ▸ hst)
  case txDrain => exact stepTransmit_moves _ now fun k t h => txDrain_moves now k (h.blk ▸ hst) rfl
  all_goals exact .of_stop (by simp)

theorem stepAscii_moves (hm : s.cfg.mode = .ascii) : Moves s (stepAscii now s) := by
  have htx {phase : Nat → State → StepAnswer × State} {x : St} (hst : s.blk.st = x)
      (hphase : ∀ k t, t.cfg.mode = .ascii → t.blk.st = x → PhaseMoves k t (phase k t)) :
      Moves s (stepTransmit .idle now phase s) :=
    stepTransmit_moves _ now fun k t h => hphase k t (h.cfg ▸ hm) (h.blk ▸ hst)
  have hrx {on : Byte → State → State} (hon : asciiRxRule now s.blk.st = some on) :
      Moves s (asciiRx now on s) := asciiRx_moves now hon
  unfold stepAscii
  cases hst : s.blk.st
  case idle => exact asciiIdle_moves now
  case rxAddrHi | rxAddrLo | rxDataHi | rxDataLo | rxLf => exact hrx (by rw [hst]; rfl)
  case txStart | txAddress | txChecksum | txEnd =>
    exact htx hst fun k t hm hst =>
      phaseWrite_moves k (by rw [hst, hm]; rfl) (by rw [hst]; decide) fun _ => ⟨rfl, rfl⟩
  case txPdu =>
    refine htx hst fun k t hm hst => .of_draw (phaseWrite_moves k ?_ ?_ fun _ => ⟨rfl, rfl⟩)
    · rw [hexAll_length, State.pdu_length]
      simp only [State.draw, hst, hm, txLimit]
    · simp only [State.draw, hst]; decide
  case txDrain => exact htx hst fun k t hm hst => txDrain_moves now k hst rfl
  case txGuard => exact stepSilence_moves now _ (by rw [hst]; rfl)
  all_goals exact .of_stop (by simp)

theorem stepState_moves (now : Nat) (s : State) : Moves s (stepState now s) := by
  by_cases he : s.blk.st = .exception
  · rw [stepState, he]; exact .of_stop (by simp)
  by_cases hx : s.blk.st.holder = .application
  · rcases (St.holder_eq_application_iff _).1 hx with hst | hst | hst
    · rw [stepState_held now (.inl hst)]; exact stepHeld_moves
    · rw [stepState_held now (.inr hst)]; exact stepHeld_moves
    · rw [stepState_collision now hst]; exact stepCollision_moves
  · cases hm : s.cfg.mode with
    | rtu => rw [stepState_rtu now hm hx he]; exact stepRtu_moves now hm
    | ascii => rw [stepState_ascii now hm hx he]; exact stepAscii_moves now hm

end

/-! ### The POLL ends -/

/-- Where the streams end, a micro-step that answers `continue` lowers the work left. -/
theorem microStep_work {s t : State} (h : microStep s = (.again, t)) (he : s.env.rxEndless = none) :
    t.env.rxEndless = none ∧ t.work < s.work := by
  have hsame := sampled_same s
  have hsampled := (sampled_sameInstance s).streams
  have hmoves := stepState_moves s.now s.sampled
  rw [microStep_eq] at h
  rcases hr : stepState s.now s.sampled with ⟨_ | d | _, u⟩ <;> rw [hr] at h <;> cases h
  rw [hr] at hmoves
  obtain ⟨hstreams, hprogress⟩ := hmoves rfl
  have hstatus := statusUpdate_streams u
  have hendless := hsampled.endless he
  have hrank : (statusUpdate u).rank = u.rank := by
    obtain ⟨_, _, hu⟩ := statusUpdate_only u
    rw [hu]; rfl
  refine ⟨hstatus.endless (hstreams.endless hendless), ?_⟩
  have hlt : u.env.pending < s.sampled.env.pending ∨ u.rank < s.sampled.rank := hprogress hendless
  rw [rank_congr hsame.blk hsame.cfg] at hlt
  have hbound := u.rank_le
  have hstatusPending := hstatus.pending
  have hpending : u.env.pending ≤ s.sampled.env.pending := hstreams.pending
  have hsampledPending := hsampled.pending
  unfold State.work
  omega

/-- So there are no more such micro-steps than there is work. -/
theorem microSteps_work (n : Nat) {s : State} (he : s.env.rxEndless = none)
    (h : ∀ j, j < n → (microStep (microSteps j s)).1 = .again) : n ≤ s.work := by
  induction n generalizing s with
  | zero => exact Nat.zero_le _
  | succ n ih =>
    have hstep : microStep s = (.again, (microStep s).2) := Prod.ext (h 0 (Nat.succ_pos n)) rfl
    obtain ⟨hendless, hwork⟩ := microStep_work hstep he
    have hle := ih hendless fun j hj => h (j + 1) (Nat.succ_lt_succ hj)
    omega

theorem microStep_polling (s : State) : (microStep s).2.polling = s.polling := by
  have hpolling := (sampled_sameInstance s).polling
  obtain ⟨r, hr, h⟩ := microStep_effect s
  rcases h with ⟨-, h⟩ | ⟨-, h⟩ <;> rw [h]
  · rfl
  · rw [(statusUpdate_undisturbed r.2).polling]
    cases hr with
    | rule hr => exact hr.polling.trans hpolling
    | @frame u hu hst n hn =>
      exact (enterFrameReady_entered (u.setLen n)).undisturbed.polling.trans (hu.polling.trans hpolling)

theorem microSteps_polling (n : Nat) (s : State) : (microSteps n s).polling = s.polling := by
  induction n generalizing s with
  | zero => rfl
  | succ n ih => exact (ih _).trans (microStep_polling s)

/-- What a POLL under way does: it ends at its first micro-step that returns or is refused, or goes on under a
stream that never pauses. -/
theorem runPoll_cases {s : State} (hp : s.polling = true) :
    ∃ n, (∀ k, k < n → (microStep (microSteps k s)).1 = .again)
      ∧ ((∃ d u, microStep (microSteps n s) = (.done d, u) ∧ runPoll s = endPoll d u)
        ∨ (∃ u, microStep (microSteps n s) = (.refused, u) ∧ runPoll s = leavePoll u)
        ∨ (s.env.rxEndless ≠ none ∧ 0 < n ∧ runPoll s = microSteps n s ∧ (runPoll s).polling = true)) := by
  obtain ⟨n, -, hagain, ⟨rfl, hrun⟩ | hdone | hrefused⟩ := pollLoop_cases (pollFuel s) s
  · refine ⟨_, hagain, .inr (.inr ⟨fun he => ?_, Nat.succ_pos _, hrun, ?_⟩)⟩
    · exact absurd (microSteps_work _ he hagain) (Nat.not_le.2 s.work_lt_pollFuel)
    · rw [runPoll, hrun, microSteps_polling, hp]
  · exact ⟨n, hagain, .inl hdone⟩
  · exact ⟨n, hagain, .inr (.inl hrefused)⟩

/-! ### A stream that never pauses -/

/-- A binary reception fed by a stream that never pauses, with no draw prescribed. -/
structure Fed (s : State) : Prop where
  mode : s.cfg.mode = .rtu
  st : s.blk.st = .dump ∨ s.blk.st = .idle ∨ s.blk.st = .receive
  bufferMax : 0 < s.cfg.bufferMax
  rxScript : s.env.rxScript = []
  rxEndless : s.env.rxEndless ≠ none

theorem sampled_rxEndless (s : State) : s.sampled.env.rxEndless = s.env.rxEndless := by
  obtain ⟨_, _, h⟩ := sampled_only s
  rw [h]; rfl

section
variable {s : State} (hscript : s.env.rxScript = []) (hendless : s.env.rxEndless ≠ none)
include hscript hendless

theorem read1_of_fed :
    ∃ r t, read1 s = (r, t) ∧ (r = .err ∨ ∃ b, r = .byte b)
      ∧ t.env.rxScript = [] ∧ t.env.rxEndless ≠ none := by
  obtain ⟨k, hk⟩ := Option.ne_none_iff_exists'.1 hendless
  obtain ⟨ha, hs, k', hk'⟩ := rxAnswer_endless Nat.one_pos hscript hk
  rcases hr : rxAnswer 1 s with ⟨a, t⟩
  rw [hr] at ha hs hk'
  have hstream : t.env.rxScript = [] ∧ t.env.rxEndless ≠ none := ⟨hs, by rw [hk']; exact nofun⟩
  rcases ha with rfl | ⟨b, bs, rfl, hlen⟩
  · exact ⟨_, _, (read1_of_answer hr).1 rfl, .inl rfl, hstream⟩
  · obtain rfl : bs = [] := by simpa using hlen
    exact ⟨_, _, (read1_of_answer hr).2 b rfl, .inr ⟨b, rfl⟩, hstream⟩

theorem discard_of_fed (hmax : 0 < s.cfg.bufferMax) :
    ∃ r t, Machine.discard s = (r, t) ∧ (r = .err ∨ ∃ k, 0 < k ∧ r = .count k)
      ∧ t.env.rxScript = [] ∧ t.env.rxEndless ≠ none := by
  obtain ⟨k, hk⟩ := Option.ne_none_iff_exists'.1 hendless
  obtain ⟨ha, hs, k', hk'⟩ := rxAnswer_endless hmax hscript hk
  rcases hr : rxAnswer s.cfg.bufferMax s with ⟨a, t⟩
  rw [hr] at ha hs hk'
  have hstream : t.env.rxScript = [] ∧ t.env.rxEndless ≠ none := ⟨hs, by rw [hk']; exact nofun⟩
  rcases ha with rfl | ⟨b, bs, rfl, hlen⟩
  · exact ⟨_, _, discard_of_err hr, .inl rfl, hstream⟩
  · exact ⟨_, _, discard_of_inRange hr hlen, .inr ⟨_, Nat.succ_pos _, rfl⟩, hstream⟩

end

/-- The micro-step answers `continue`, the reception goes on, and DUMP is not left. -/
structure FedStep (s : State) (r : StepAnswer × State) : Prop where
  again : r.1 = .again
  fed : Fed r.2
  dump : s.blk.st = .dump → r.2.blk.st = .dump

section
variable {s : State} (h : Fed s)
include h

theorem Fed.goes_on {t : State} {b : Block} (hstep : stepState s.now s.sampled = (.again, t.setBlk b))
    (hsame : SameBlock s t) (hstream : t.env.rxScript = [] ∧ t.env.rxEndless ≠ none)
    (hb : b.st = .dump ∨ b.st = .idle ∨ b.st = .receive) (hdump : s.blk.st = .dump → b.st = .dump) :
    FedStep s (microStep s) := by
  have hmode : t.cfg.mode = .rtu := hsame.cfg ▸ h.mode
  have hmax : 0 < t.cfg.bufferMax := hsame.cfg ▸ h.bufferMax
  obtain ⟨stat, calls, hu⟩ := statusUpdate_only (t.setBlk b)
  rw [microStep_again hstep, hu]
  exact ⟨rfl, ⟨hmode, hb, hmax, hstream.1, hstream.2⟩, hdump⟩

theorem Fed.microStep : FedStep s (Machine.microStep s) := by
  have hscript : s.sampled.env.rxScript = [] := (sampled_rxScript s).trans h.rxScript
  have hendless : s.sampled.env.rxEndless ≠ none := sampled_rxEndless s ▸ h.rxEndless
  have hmax : 0 < s.sampled.cfg.bufferMax := (sampled_same s).cfg ▸ h.bufferMax
  obtain ⟨r, t, hr, hanswer, hstream⟩ := read1_of_fed hscript hendless
  have hsame := read1_sampled_same hr
  rcases h.st with hst | hst | hst
  case inl =>
    obtain ⟨r, t, hd, hanswer, hstream⟩ := discard_of_fed hscript hendless hmax
    have hsame := discard_sampled_same hd
    have hdump : t.blk.st = .dump := by rw [hsame.blk, hst]
    have hrule := stepState_sampled_dump h.mode hst
    rcases hanswer with rfl | ⟨k, hk, rfl⟩
    · exact h.goes_on (hrule.trans (stepSilence_of_err _ _ hd)) hsame hstream (.inl hdump) fun _ => hdump
    · exact h.goes_on (hrule.trans (stepSilence_of_bytes _ _ hk hd)) hsame hstream (.inl hdump) fun _ => hdump
  case inr.inl =>
    have hrule := stepState_sampled_rtuIdle h.mode hst
    rcases hanswer with rfl | ⟨a, rfl⟩
    · exact h.goes_on (hrule.trans (rtuIdle_of_err _ hr)) hsame hstream (.inl rfl) fun _ => rfl
    · by_cases ha : accept t.blk.station a = true
      · exact h.goes_on (hrule.trans (rtuIdle_of_accepted _ hr ha)) hsame hstream (.inr (.inr rfl))
          (by simp [hst])
      · exact h.goes_on (hrule.trans (rtuIdle_of_rejected _ hr ha)) hsame hstream (.inl rfl) fun _ => rfl
  case inr.inr =>
    have hreceive : t.blk.st = .receive := by rw [hsame.blk, hst]
    have hrule := stepState_sampled_receive h.mode hst
    rcases hanswer with rfl | ⟨v, rfl⟩
    · exact h.goes_on (hrule.trans (rtuReceive_of_err _ hr)) hsame hstream (.inl rfl) fun _ => rfl
    · by_cases hstore : t.blk.gap = false ∧ t.blk.rxN < t.cfg.bufferMax
      · exact h.goes_on (hrule.trans (rtuReceive_of_stored _ hr hstore.1 hstore.2)) hsame hstream
          (.inr (.inr hreceive)) (by simp [hst])
      · have hdiscard := rtuReceive_of_discarded s.now hr (by
          simpa [Classical.or_iff_not_imp_left] using hstore)
        exact h.goes_on (hrule.trans hdiscard) hsame hstream (.inl rfl) fun _ => rfl

end

theorem Fed.microSteps (n : Nat) {s : State} (h : Fed s) :
    Fed (Machine.microSteps n s) ∧ (s.blk.st = .dump → (Machine.microSteps n s).blk.st = .dump) := by
  induction n generalizing s with
  | zero => exact ⟨h, id⟩
  | succ n ih =>
    obtain ⟨-, hfed, hdump⟩ := h.microStep
    exact (ih hfed).imp_right (· ∘ hdump)

/-- A POLL under way is fed without end. -/
theorem Fed.runPoll {s : State} (h : Fed s) (hp : s.polling = true) :
    Fed (Machine.runPoll s) ∧ (Machine.runPoll s).polling = true := by
  have hagain (n : Nat) : (Machine.microStep (Machine.microSteps n s)).1 = .again :=
    (h.microSteps n).1.microStep.again
  obtain ⟨n, -, ⟨d, u, hu, -⟩ | ⟨u, hu, -⟩ | ⟨-, -, hrun, hpolling⟩⟩ := runPoll_cases hp
  · have := hagain n; rw [hu] at this; cases this
  · have := hagain n; rw [hu] at this; cases this
  · exact ⟨hrun ▸ (h.microSteps n).1, hpolling⟩

theorem Fed.runSteps (n : Nat) {s : State} (h : Fed s) (hp : s.polling = true) :
    (Machine.runSteps n s).polling = true := by
  induction n generalizing s with
  | zero => exact hp
  | succ n ih =>
    obtain ⟨hfed, hpolling⟩ := h.runPoll hp
    have hstep : Machine.step s = .next (Machine.runPoll s) := if_pos hp
    rw [Machine.runSteps, hstep]
    exact ih hfed hpolling

/-- Settles O24: the fuel of a POLL exceeds its work where the streams end; where they do not, the micro-steps of
a binary reception answer `continue` without end. -/
theorem pollRunsToTheFirstReturn : Obligations.PollRunsToTheFirstReturn := by
  refine ⟨fun s begun outcome h => ?_, fun s hm hst hmax hscript hendless => ?_⟩
  · have hbegun : begun.polling = true ∧ begun.env.rxEndless = s.env.rxEndless
        ∧ outcome = .next (runPoll begun) := by
      rcases h with ⟨hi, hp, hne, rfl, rfl⟩ | ⟨hp, rfl, rfl⟩
      · exact ⟨rfl, rfl, congrArg Host.Outcome.next (poll_of_ne_exception hi hp hne)⟩
      · exact ⟨hp, rfl, if_pos hp⟩
    obtain ⟨hp, hendless, rfl⟩ := hbegun
    obtain ⟨n, hagain, hend⟩ := runPoll_cases hp
    rw [hendless] at hend
    exact ⟨n, _, rfl, hagain, hend⟩
  · have hfed : Fed s := ⟨hm, hst, hmax, hscript, hendless⟩
    refine ⟨fun n => ⟨(hfed.microSteps n).1.microStep.again, (hfed.microSteps n).2⟩, fun hi hp => ?_⟩
    have hne : s.blk.st ≠ .exception := by rcases hst with hst | hst | hst <;> simp [hst]
    have hbegun : Fed (enterPoll s) := ⟨hm, hst, hmax, hscript, hendless⟩
    obtain ⟨hrun, hpolling⟩ := hbegun.runPoll rfl
    exact ⟨_, congrArg Host.Outcome.next (poll_of_ne_exception hi hp hne), fun n => hrun.runSteps n hpolling⟩

end Sys2Proof.Machine
end
